-- ==== Sys2Proof/Word.lean ====
section
/-! DEFINITION. The widths of spec rule R8 (00_scope.md), each under one name. -/

namespace Sys2Proof

/-- A host register, an S-box entry or a cipher half-block (R8: 32 bits). -/
abbrev Word := BitVec 32

/-- A field element or a byte of KEY or BUF (R8: 8 bits). -/
abbrev Byte := BitVec 8

/-- A reduction modulus (R8: 9 bits). -/
abbrev Modulus := BitVec 9

/-- An S-box index (R8: 10 bits). -/
abbrev SboxIndex := BitVec 10

/-- A word of the key buffer (R8: 16 bits). -/
abbrev KeyWord := BitVec 16

/-- A subkey word or an expanded half-block (R8: 20 bits). -/
abbrev SubWord := BitVec 20

/-- A byte offset of the host port: the port decodes offset bits 12 to 0 (R60). -/
abbrev Offset := BitVec 13

end Sys2Proof
end

