-- ==== Sys2Proof/Syntax.lean ====
section
/-! DEFINITION. The commands of the opcode map (R92), one constructor for each. No command carries an operand field: each
reads fixed registers (R90, R93). -/

namespace Sys2Proof

/-- The ten commands of R92. -/
inductive Instr where
  /-- NOP, opcode 0x0 (R228). -/
  | nop
  /-- KEYSET, opcode 0x1 (R182). -/
  | keyset
  /-- ENCRYPT, opcode 0x2 (R226). -/
  | encrypt
  /-- DECRYPT, opcode 0x3 (R227). -/
  | decrypt
  /-- ZEROIZE, opcode 0x4 (R184). -/
  | zeroize
  /-- GFMUL, opcode 0x8 (R125). -/
  | gfmul
  /-- GFEXP7, opcode 0x9 (R126). -/
  | gfexp7
  /-- PERM32, opcode 0xA (R155). -/
  | perm32
  /-- SBOXRD, opcode 0xB (R156). -/
  | sboxrd
  /-- ROUNDF, opcode 0xC (R206). -/
  | roundf
deriving DecidableEq, Repr

end Sys2Proof
end

