-- ==== Sys2Proof/WellFormed.lean ====
section
/-! DEFINITION. Which command words are legal (R90, R94). A command has no fields, so every term of Instr is well formed; the
checks are on the word: its reserved bits, and its opcode. -/

namespace Sys2Proof

/-- R90: the reserved bits 31 to 4 of a command word must be 0. -/
def reservedZero (w : Word) : Bool := w &&& 0xFFFF_FFF0 == 0

/-- The assigned opcodes of R92. -/
def assignedOps : List Nat := [0x0, 0x1, 0x2, 0x3, 0x4, 0x8, 0x9, 0xA, 0xB, 0xC]

/-- R94: opcodes 0x5 to 0x7 and 0xD to 0xF, in bits 3 to 0, are reserved. -/
def opAssigned (w : Word) : Bool := assignedOps.contains (w.toNat % 16)

/-- A command word is legal when its reserved bits are 0 and its opcode is assigned (R94). -/
def wellFormedWord (w : Word) : Bool := reservedZero w && opAssigned w

/-- A command has no field that could be ill formed (R90: no register, immediate or mode field). -/
def Instr.wellFormed : Instr → Bool
  | .nop | .keyset | .encrypt | .decrypt | .zeroize => true
  | .gfmul | .gfexp7 | .perm32 | .sboxrd | .roundf => true

end Sys2Proof
end

