-- ==== Sys2Proof/Decode.lean ====
section
/-! DEFINITION. The decoder of command words (R91, R92, R94), total on every word, and the encoder, both from the opcode map
of R92. -/

namespace Sys2Proof

/-- OP, bits 3 to 0 of a command word (R90). -/
def opField (w : Word) : BitVec 4 := w.extractLsb' 0 4

/-- RSV, bits 31 to 4 of a command word (R90). -/
def rsvField (w : Word) : BitVec 28 := w.extractLsb' 4 28

/-- The case of R91 on the opcode; a reserved opcode has no command (R94). -/
def decodeOp (op : BitVec 4) : Option Instr :=
  match op.toNat with
  | 0x0 => some .nop
  | 0x1 => some .keyset
  | 0x2 => some .encrypt
  | 0x3 => some .decrypt
  | 0x4 => some .zeroize
  | 0x8 => some .gfmul
  | 0x9 => some .gfexp7
  | 0xA => some .perm32
  | 0xB => some .sboxrd
  | 0xC => some .roundf
  | _ => none

/-- R91: the reserved bits are checked before the opcode; `none` is the illegal word of R94. -/
def decode (w : Word) : Option Instr :=
  if rsvField w ≠ 0 then none else decodeOp (opField w)

/-- The word of each command (R92). -/
def encode : Instr → Word
  | .nop     => 0x0000_0000
  | .keyset  => 0x0000_0001
  | .encrypt => 0x0000_0002
  | .decrypt => 0x0000_0003
  | .zeroize => 0x0000_0004
  | .gfmul   => 0x0000_0008
  | .gfexp7  => 0x0000_0009
  | .perm32  => 0x0000_000A
  | .sboxrd  => 0x0000_000B
  | .roundf  => 0x0000_000C

/-- The command word that a row's bits stand for: every command is one 32-bit word (R95), and bits above `nbits` are 0. -/
def tableWord (nbits w : Nat) : Word := BitVec.ofNat 32 (w % 2 ^ nbits)

/-- The command read from a row of the opcode table whose bits are `w`. -/
def decodeTableWord (nbits w : Nat) : Option Instr := decode (tableWord nbits w)

end Sys2Proof
end

