-- ==== Sys2Proof/Config.lean ====
section
/-! DEFINITION. What an instance of the hardware fixes (R5, R6, R60), the four constant tables (R7) and the free values the
spec leaves open (93_implementation_defined.md U5 to U7). -/

namespace Sys2Proof

/-- The parameters of an instance, with the ranges of R5 and R6; HOST_BASE is the platform's (R60).
The machine carries them in its state and no transition changes them (log entry 1). -/
structure Params where
  /-- NMAX, the largest strength level the engine accepts (R5). -/
  nmax : Nat
  /-- BUF_BYTES, the size of the data buffer (R6). -/
  bufBytes : Nat
  /-- HOST_BASE, where the platform places the window (R60). -/
  hostBase : Nat
  one_le_nmax : 1 ≤ nmax
  nmax_le : nmax ≤ 128
  bufBytes_mod : bufBytes % 8 = 0
  eight_le_bufBytes : 8 ≤ bufBytes
  bufBytes_le : bufBytes ≤ 4096
deriving DecidableEq, Repr

namespace Config

/-- The instance that State.reset is: the platform of the spec's programs (95_test_vectors.md section 3).
DESIGN CHOICE (log entry 1): NMAX, BUF_BYTES and HOST_BASE are OPEN in the spec. Unsafe for a claim about a run from
State.reset, safe for a claim about every state. -/
def params : Params where
  nmax := 2
  bufBytes := 32
  hostBase := 0
  one_le_nmax := by decide
  nmax_le := by decide
  bufBytes_mod := by decide
  eight_le_bufBytes := by decide
  bufBytes_le := by decide

/-- ICE_SMOD, the moduli, indexed by S-box number and row (R140). The spec takes the values from general knowledge:
PRESUMED (log entry 2), unsafe. -/
def smod : Vector (Vector Modulus 4) 4 :=
  #v[#v[333, 313, 505, 369],
     #v[379, 375, 319, 391],
     #v[361, 445, 451, 397],
     #v[397, 425, 395, 505]]

/-- ICE_SXOR, the XOR masks, indexed by S-box number and row (R141). PRESUMED (log entry 2), unsafe. -/
def sxor : Vector (Vector Byte 4) 4 :=
  #v[#v[0x83, 0x85, 0x9b, 0xcd],
     #v[0xcc, 0xa7, 0xad, 0x41],
     #v[0x4b, 0x2e, 0xd4, 0x33],
     #v[0xea, 0xcb, 0x2e, 0x04]]

/-- ICE_PBOX, the permutation masks, indexed by source bit (R142). PRESUMED (log entry 2), unsafe. -/
def pbox : Vector Word 32 :=
  #v[0x00000001, 0x00000080, 0x00000400, 0x00002000, 0x00080000, 0x00200000, 0x01000000, 0x40000000,
     0x00000008, 0x00000020, 0x00000100, 0x00004000, 0x00010000, 0x00800000, 0x04000000, 0x20000000,
     0x00000004, 0x00000010, 0x00000200, 0x00008000, 0x00020000, 0x00400000, 0x08000000, 0x10000000,
     0x00000002, 0x00000040, 0x00000800, 0x00001000, 0x00040000, 0x00100000, 0x02000000, 0x80000000]

/-- ICE_KEYROT, the rotation indices: entries 0 to 7 and 8 to 15 (R170). PRESUMED (log entry 2), unsafe. -/
def keyrot : Vector (Fin 4) 16 :=
  #v[0, 1, 2, 3, 2, 1, 3, 0, 1, 3, 2, 0, 3, 1, 0, 2]

/-- The free value a read of BUF, RESULT, SIZE or ROUNDS returns while BUSY is 1 (R301, U6): one for each such read, by the
count of those before it (log entry 9). -/
opaque readDraw : Nat → Word

/-- The free value a byte of BUF reads as until it is written: by the count of resets and the byte's address
(R34, U5; log entry 7). -/
opaque bufDraw : Nat → Nat → Byte

/-- The free value an entry of SBOX reads as before INIT has built it: by the count of resets, the S-box number and the index
(R35, U7; log entry 8). -/
opaque sboxDraw : Nat → Nat → Nat → Word

end Config

end Sys2Proof
end

