-- ==== Sys2Proof/Machine/State.lean ====
section
/-! DEFINITION. The state of the block (10_state.md), plain data, with its value at reset (R44), and the reasons a step could
stop. INVENTORY.md, section State, lists every field with its rule. -/

namespace Sys2Proof.Machine

/-- The error codes of R250. Codes 7 to 15 are never reported, so they have no constructor (U13). -/
inductive ErrCode where
  | ok | illegalCmd | levelRange | badKeylen | noKey | badLen | badOperand
deriving DecidableEq, Repr

/-- PENDING, the operation latch (R39). -/
inductive Pending where
  /-- NONE: the engine is idle. -/
  | idle
  /-- INIT: the S-boxes are still to be built. -/
  | init
  /-- CMD(w): an accepted command word waits for its engine step. -/
  | cmd (w : Word)
deriving DecidableEq, Repr

/-- One entry of SCHED: two XOR subkeys and the salt (R36). -/
structure SubKey where
  sk0 : SubWord
  sk1 : SubWord
  sk2 : SubWord
deriving DecidableEq, Repr

/-- The entry (0, 0, 0). -/
def SubKey.zero : SubKey := ⟨0, 0, 0⟩

/-- A transaction of the host port: Read(off, size) or Write(off, size, v) (R60). -/
inductive Access where
  | read (off : Offset) (size : Nat)
  | write (off : Offset) (size : Nat) (v : Word)
deriving DecidableEq, Repr

/-- One line of a host program after the expansions of R97: a transaction, or the loop `wait`. -/
inductive HostOp where
  | access (a : Access)
  | wait
deriving DecidableEq, Repr

/-- Who makes the next transition (R73): the host, the engine, or the reset input (R9, R290). -/
inductive Turn where
  | host | engine | reset
deriving DecidableEq, Repr

/-- The state of the block and of the host that drives it. -/
structure State where
  /-- NMAX, BUF_BYTES, HOST_BASE (R5, R6, R60). -/
  params : Params
  /-- PENDING (R39). -/
  pending : Pending
  /-- STATUS.DONE (R23). -/
  done : Bool
  /-- STATUS.ERR (R23). -/
  err : Bool
  /-- STATUS.ERRCODE (R23, R250). -/
  errcode : ErrCode
  /-- KEYVALID (R37). -/
  keyvalid : Bool
  /-- READY (R38). -/
  ready : Bool
  /-- STATUS.OVR (R23). -/
  ovr : Bool
  /-- STATUS.BUSERR (R23). -/
  buserr : Bool
  /-- STATUS.LASTOP (R23). -/
  lastop : BitVec 4
  /-- IRQEN[0], DONE_IE (R25). -/
  irqen : Bool
  /-- LEVEL (R26). -/
  level : Word
  /-- KEYLEN (R27). -/
  keylen : Word
  /-- LEN (R28). -/
  len : Word
  /-- SIZE (R29). -/
  size : Word
  /-- ROUNDS (R30). -/
  rounds : Word
  /-- RESULT (R31). -/
  result : Word
  /-- OPA (R32). -/
  opa : Word
  /-- OPB (R32). -/
  opb : Word
  /-- OPC (R32). -/
  opc : Word
  /-- OPD (R32). -/
  opd : Word
  /-- KEY (R33): the bytes that are not 0, by rising address. -/
  key : List Host.Cell
  /-- BUF (R34): the bytes written since reset, by rising address. -/
  buf : List Host.Cell
  /-- SBOX (R35): nothing until INIT, then four sequences of 1024 entries. -/
  sbox : List (List Word)
  /-- SCHED (R36): 16*NMAX entries. -/
  sched : List SubKey
  /-- The model's own: how many resets there have been (log entry 10). -/
  epoch : Nat
  /-- The model's own: how many reads while busy there have been (log entry 10). -/
  draws : Nat
  /-- The model's own: what the host has still to do (log entry 5). -/
  program : List HostOp
  /-- The model's own: what the host's reads have returned, oldest first (log entry 5). -/
  observed : List Word
  /-- The model's own: who makes the next transitions (log entry 4). -/
  turns : List Turn
deriving DecidableEq, Repr

/-- The reasons a step could stop with a fault: NONE. The block has no trap mechanism (R257), every error is a completion
(R256), and every operation is total (R307). DEDUCED (log entry 14). -/
inductive Fault where
deriving DecidableEq, Repr

/-- The reasons a step could refuse. -/
inductive Refusal where
  /-- Raised by an arm of exec for a command that has no meaning yet (none is left); safe. -/
  | notModelled (mnemonic : String)
deriving DecidableEq, Repr

/-- The block right after reset (R44), as the instance with parameters `p`, with a host that has nothing to do. -/
def State.resetWith (p : Params) : State where
  params := p
  pending := .init
  done := false
  err := false
  errcode := .ok
  keyvalid := false
  ready := false
  ovr := false
  buserr := false
  lastop := 0
  irqen := false
  level := 0
  keylen := 0
  len := 0
  size := 0
  rounds := 0
  result := 0
  opa := 0
  opb := 0
  opc := 0
  opd := 0
  key := []
  buf := []
  sbox := []
  sched := List.replicate (16 * p.nmax) SubKey.zero
  epoch := 0
  draws := 0
  program := []
  observed := []
  turns := []

/-- The machine right after reset (R44), for the parameters of Config. -/
def State.reset : State := State.resetWith Config.params

end Sys2Proof.Machine
end

