-- ==== Sys2Proof/Machine/Ops.lean ====
section
/-! DEFINITION. The named operations over memory and registers, the acceptance of a command (R39), and completion (R256), which
on this block is what taking an exception is on others (R257, R258). -/

namespace Sys2Proof.Machine

/-! Memory: a list of cells by strictly rising address. -/

/-- The byte listed at an address. -/
def Memory.get? : List Host.Cell → Nat → Option Byte
  | [], _ => none
  | c :: m, a => if c.1 = a then some c.2 else Memory.get? m a

/-- List a byte at an address, in its place. -/
def Memory.put : List Host.Cell → Nat → Byte → List Host.Cell
  | [], a, b => [(a, b)]
  | c :: m, a, b =>
    if a < c.1 then (a, b) :: c :: m
    else if a = c.1 then (a, b) :: m
    else c :: Memory.put m a b

/-- List nothing at an address. -/
def Memory.erase : List Host.Cell → Nat → List Host.Cell
  | [], _ => []
  | c :: m, a => if a = c.1 then m else c :: Memory.erase m a

/-- The canonical form: addresses strictly rising and below the memory's size, and no byte that an unlisted address would read
as (`listed` says which bytes may stand in the list). -/
def Memory.wf (size : Nat) (listed : Byte → Bool) (m : List Host.Cell) : Bool :=
  decide (m.Pairwise fun c d => c.1 < d.1) && m.all fun c => decide (c.1 < size) && listed c.2

/-- KEY's form: an unlisted byte reads 0, the reset value of R33, so no 0 is listed. -/
def keyWf (p : Params) (m : List Host.Cell) : Bool := Memory.wf (8 * p.nmax) (fun b => b != 0) m

/-- BUF's form: an unlisted byte holds no value (R34), so any byte may be listed. -/
def bufWf (p : Params) (m : List Host.Cell) : Bool := Memory.wf p.bufBytes (fun _ => true) m

/-! Byte order: big-endian everywhere (R67). -/

/-- Byte `i` of a 32-bit value in big-endian order: byte 0 is bits 31 to 24. -/
def byteOf (v : Word) (i : Nat) : Byte := v.extractLsb' (24 - 8 * i) 8

/-- The 32-bit value of four bytes, the first most significant. -/
def wordOf (b0 b1 b2 b3 : Byte) : Word := b0 ++ b1 ++ b2 ++ b3

/-! KEY (R33). -/

/-- KEY[a]. -/
def State.keyByte (s : State) (a : Nat) : Byte := (Memory.get? s.key a).getD 0

/-- The list of KEY with byte `b` at `a`: a byte 0 is not listed. -/
def keyPut (m : List Host.Cell) (a : Nat) (b : Byte) : List Host.Cell :=
  if b = 0 then Memory.erase m a else Memory.put m a b

/-- The four bytes of a KEY window word at address `a` (R62). -/
def keyWrite (m : List Host.Cell) (a : Nat) (v : Word) : List Host.Cell :=
  keyPut (keyPut (keyPut (keyPut m a (byteOf v 0)) (a + 1) (byteOf v 1)) (a + 2) (byteOf v 2)) (a + 3) (byteOf v 3)

/-! BUF (R34). -/

/-- BUF[a]: a byte not written since reset is a draw, fixed until the byte is written (R34, U5; log entry 7). -/
def State.bufByte (s : State) (a : Nat) : Byte := (Memory.get? s.buf a).getD (Config.bufDraw s.epoch a)

/-- MemRead(a, 4) of R12. -/
def State.memRead (s : State) (a : Nat) : Word :=
  wordOf (s.bufByte a) (s.bufByte (a + 1)) (s.bufByte (a + 2)) (s.bufByte (a + 3))

/-- The bytes of MemWrite(a, 4, v) of R12. -/
def bufWrite (m : List Host.Cell) (a : Nat) (v : Word) : List Host.Cell :=
  Memory.put (Memory.put (Memory.put (Memory.put m a (byteOf v 0)) (a + 1) (byteOf v 1)) (a + 2) (byteOf v 2))
    (a + 3) (byteOf v 3)

/-- MemWrite(a, 4, v) of R12. -/
def State.memWrite (s : State) (a : Nat) (v : Word) : State := { s with buf := bufWrite s.buf a v }

/-! SBOX (R35) and SCHED (R36). -/

/-- SBOX[k][i]; an entry INIT has not built is a draw (R35, U7; log entry 8). -/
def State.sboxAt (s : State) (k : Fin 4) (i : SboxIndex) : Word :=
  ((s.sbox.getD k.val []).getD i.toNat (Config.sboxDraw s.epoch k.val i.toNat))

/-- SCHED[r]. -/
def State.schedAt (s : State) (r : Nat) : SubKey := s.sched.getD r SubKey.zero

/-! Registers. -/

/-- BUSY = 1 exactly when PENDING is not NONE (R39). -/
def State.busy (s : State) : Bool :=
  match s.pending with
  | .idle => false
  | .init => true
  | .cmd _ => true

/-- RESULT <- v. -/
def State.setResult (s : State) (v : Word) : State := { s with result := v }

/-- A value the host's read returned. -/
def State.observe (s : State) (v : Word) : State := { s with observed := s.observed ++ [v] }

/-- The free value of a read while busy, a new one for each read (R301, U6; log entry 9). -/
def State.draw (s : State) : Word × State := (Config.readDraw s.draws, { s with draws := s.draws + 1 })

/-! Acceptance, completion, reset. -/

/-- The acceptance of a command word (R39): one transition of the host. -/
def State.accept (s : State) (w : Word) : State :=
  { s with pending := .cmd w, done := false, err := false, errcode := .ok, lastop := opField w }

/-- complete(code) (R256): the end of every engine step for a command, with or without error. A command that raises an error
ends here and changes nothing else (R254). -/
def State.complete (s : State) (c : ErrCode) : State :=
  { s with pending := .idle, done := true, err := c != .ok, errcode := c }

/-- The end of a diagnostic command: BAD_OPERAND where an operand is out of range, which leaves RESULT (R254), and else its
value in RESULT (R31). -/
def State.diagnose (s : State) : Option Word → State
  | none => s.complete .badOperand
  | some v => (s.setResult v).complete .ok

/-- The reset input (R290, R291): every piece of the block's state takes its reset value; the instance's parameters stay, BUF
and SBOX hold nothing, under new free values (log entries 10 and 12). The host outside is not reset. -/
def State.resetInput (s : State) : State :=
  { State.resetWith s.params with
    epoch := s.epoch + 1, draws := s.draws, program := s.program, observed := s.observed, turns := s.turns }

end Sys2Proof.Machine
end

