-- ==== Sys2Proof/Machine/Operands.lean ====
section
/-! DEFINITION. The operands of every command, assembled from the operand registers (R93). `none` is an operand out of range,
which is BAD_OPERAND. -/

namespace Sys2Proof.Machine

/-- The low `n` bits of an operand register, whose other bits must be 0 (R93). -/
def lowField (n : Nat) (w : Word) : Option (BitVec n) :=
  if w >>> n = 0 then some (w.setWidth n) else none

/-- A modulus: OPC[31:9] = 0 and OPC[8] = 1 (R93). -/
def modulusField (w : Word) : Option Modulus :=
  match lowField 9 w with
  | none => none
  | some m => if m.getLsbD 8 then some m else none

/-- The operands a, b and m of GFMUL (R93, R125). -/
def State.gfmulOperands (s : State) : Option (Byte × Byte × Modulus) :=
  match lowField 8 s.opa, lowField 8 s.opb, modulusField s.opc with
  | some a, some b, some m => some (a, b, m)
  | _, _, _ => none

/-- The operands b and m of GFEXP7 (R93, R126): OPB and OPD are ignored. -/
def State.gfexp7Operands (s : State) : Option (Byte × Modulus) :=
  match lowField 8 s.opa, modulusField s.opc with
  | some b, some m => some (b, m)
  | _, _ => none

/-- The operands k = OPA[11:10] and i = OPA[9:0] of SBOXRD (R93, R156). -/
def State.sboxrdOperands (s : State) : Option (Fin 4 × SboxIndex) :=
  match lowField 12 s.opa with
  | some x => some ((x.extractLsb' 10 2).toFin, x.extractLsb' 0 10)
  | none => none

/-- The operands p and sk of ROUNDF (R93, R206). -/
def State.roundfOperands (s : State) : Option (Word × SubKey) :=
  match lowField 20 s.opb, lowField 20 s.opc, lowField 20 s.opd with
  | some a, some b, some c => some (s.opa, ⟨a, b, c⟩)
  | _, _, _ => none

/-- The level of KEYSET: LEVEL as a signed number (R93), the only signed operand. -/
abbrev State.levelOperand (s : State) : Int := s.level.toInt

end Sys2Proof.Machine
end

