-- ==== Sys2Proof/Machine/RoundFunction.lean ====
section
/-! DEFINITION. The Feistel round function (43_round_function.md), and the command ROUNDF. -/

namespace Sys2Proof.Machine

/-- The left expansion tl (R200). The exact formula is the spec's, from general knowledge: PRESUMED (log entry 3), unsafe. -/
def expandLeft (p : Word) : SubWord := p.extractLsb' 0 2 ++ p.extractLsb' 24 8 ++ p.extractLsb' 16 10

/-- The right expansion tr (R201; 90_conflicts.md C5). PRESUMED (log entry 3), unsafe. -/
def expandRight (p : Word) : SubWord := p.extractLsb' 8 10 ++ p.extractLsb' 0 10

/-- The salt permutation (R203): (al, ar). -/
def saltSwap (tl tr salt : SubWord) : SubWord × SubWord :=
  let t := salt &&& (tl ^^^ tr)
  (t ^^^ tl, t ^^^ tr)

/-- al after salt and subkey (R203, R204). -/
def roundLeft (p : Word) (sk : SubKey) : SubWord :=
  (saltSwap (expandLeft p) (expandRight p) sk.sk2).1 ^^^ sk.sk0

/-- ar after salt and subkey (R203, R204). -/
def roundRight (p : Word) (sk : SubKey) : SubWord :=
  (saltSwap (expandLeft p) (expandRight p) sk.sk2).2 ^^^ sk.sk1

/-- The round function f(p, sk) (R205), over a lookup in SBOX. -/
def roundF (sbox : Fin 4 → SboxIndex → Word) (p : Word) (sk : SubKey) : Word :=
  let al := roundLeft p sk
  let ar := roundRight p sk
  sbox 0 (al.extractLsb' 10 10) ||| sbox 1 (al.extractLsb' 0 10) |||
    sbox 2 (ar.extractLsb' 10 10) ||| sbox 3 (ar.extractLsb' 0 10)

/-- ROUNDF (R206). -/
def execRoundf (s : State) : Host.Outcome State Fault Refusal :=
  .next (s.diagnose (s.roundfOperands.map fun x => roundF s.sboxAt x.1 x.2))

end Sys2Proof.Machine
end

