-- ==== Sys2Proof/Machine/BlockCipher.lean ====
section
/-! DEFINITION. The block encrypt and decrypt loop driver (44_block_cipher.md), and the commands ENCRYPT and DECRYPT. A block
is its two big-endian words, left and right (R67). -/

namespace Sys2Proof.Machine

/-- The loop of R220 from round `i`, with the pairs of half-rounds left. -/
def encryptRounds (f : Word → SubKey → Word) (sched : Nat → SubKey) : Nat → Nat → Word × Word → Word × Word
  | 0, _, x => x
  | n + 1, i, x =>
    let l := x.1 ^^^ f x.2 (sched i)
    let r := x.2 ^^^ f l (sched (i + 1))
    encryptRounds f sched n (i + 2) (l, r)

/-- The loop of R221 from round `i` down, with the pairs of half-rounds left. -/
def decryptRounds (f : Word → SubKey → Word) (sched : Nat → SubKey) : Nat → Nat → Word × Word → Word × Word
  | 0, _, x => x
  | n + 1, i, x =>
    let l := x.1 ^^^ f x.2 (sched i)
    let r := x.2 ^^^ f l (sched (i - 1))
    decryptRounds f sched n (i - 2) (l, r)

/-- EncryptBlock (R220): i = 0, 2, ... up to rounds-2; the output is right, then left. -/
def encryptBlock (f : Word → SubKey → Word) (sched : Nat → SubKey) (rounds : Nat) (b : Word × Word) : Word × Word :=
  (encryptRounds f sched (rounds / 2) 0 b).swap

/-- DecryptBlock (R221): i = rounds-1 down to 1 by 2; the output is right, then left. -/
def decryptBlock (f : Word → SubKey → Word) (sched : Nat → SubKey) (rounds : Nat) (b : Word × Word) : Word × Word :=
  (decryptRounds f sched (rounds / 2) (rounds - 1) b).swap

/-- Block `b` of Transform (R223): BUF[8b .. 8b+7] replaced by its image. -/
def transformBlock (fn : Word × Word → Word × Word) (s : State) (b : Nat) : State :=
  let out := fn (s.memRead (8 * b), s.memRead (8 * b + 4))
  (s.memWrite (8 * b) out.1).memWrite (8 * b + 4) out.2

/-- Transform(Fn) (R223): the blocks of BUF[0 .. LEN-1] in order, in place. -/
def State.transform (s : State) (fn : Word × Word → Word × Word) : State :=
  (List.range (s.len.toNat / 8)).foldl (transformBlock fn) s

/-- Validate() (R225): NO_KEY, then BAD_LEN. -/
def State.validate (s : State) : ErrCode :=
  if s.keyvalid = false then .noKey
  else if s.len.toNat = 0 ∨ s.len.toNat % 8 ≠ 0 ∨ s.params.bufBytes < s.len.toNat then .badLen
  else .ok

/-- The loaded key's EncryptBlock (R220). -/
def State.encryptFn (s : State) : Word × Word → Word × Word :=
  encryptBlock (roundF s.sboxAt) s.schedAt s.rounds.toNat

/-- The loaded key's DecryptBlock (R221). -/
def State.decryptFn (s : State) : Word × Word → Word × Word :=
  decryptBlock (roundF s.sboxAt) s.schedAt s.rounds.toNat

/-- Validation, and then the transform of BUF (R226, R227). -/
def State.runCipher (s : State) (fn : Word × Word → Word × Word) : State :=
  match s.validate with
  | .ok => (s.transform fn).complete .ok
  | c => s.complete c

/-- ENCRYPT (R226). -/
def execEncrypt (s : State) : Host.Outcome State Fault Refusal := .next (s.runCipher s.encryptFn)

/-- DECRYPT (R227). -/
def execDecrypt (s : State) : Host.Outcome State Fault Refusal := .next (s.runCipher s.decryptFn)

end Sys2Proof.Machine
end

