-- ==== Sys2Proof/Machine/Control.lean ====
section
/-! DEFINITION. The control family: NOP (R228). -/

namespace Sys2Proof.Machine

/-- NOP (R228): completes with OK, and nothing else. -/
def execNop (s : State) : Host.Outcome State Fault Refusal := .next (s.complete .ok)

end Sys2Proof.Machine
end

