-- ==== Sys2Proof/Machine/GfArith.lean ====
section
/-! DEFINITION. The Galois-Field multiplier and the exponent-7 unit (40_gf_arith.md), and the commands GFMUL and GFEXP7. -/

namespace Sys2Proof.Machine

/-- The shift of the multiplicand with its reduction (R120): the 9-bit `a << 1`, XORed with `m` when it reaches 256; 8 bits
are left (R121). -/
def gfShift (m : Modulus) (a : Byte) : Byte :=
  let a9 : BitVec 9 := a.setWidth 9 <<< 1
  (if 256 ≤ a9.toNat then a9 ^^^ m else a9).setWidth 8

/-- The loop of R120 while `b` is not 0, with the steps left. -/
def gfMultLoop (m : Modulus) : Nat → Byte → Byte → Byte → Byte
  | 0, _, _, res => res
  | n + 1, a, b, res =>
    if b = 0 then res
    else gfMultLoop m n (gfShift m a) (b >>> 1) (if b.getLsbD 0 then res ^^^ a else res)

/-- gf_mult(a, b, m) (R120); 8 steps are enough for an 8-bit `b` (R121). -/
def gfMult (a b : Byte) (m : Modulus) : Byte := gfMultLoop m 8 a b 0

/-- gf_exp7(b, m) (R123). -/
def gfExp7 (b : Byte) (m : Modulus) : Byte :=
  if b = 0 then 0
  else
    let x2 := gfMult b b m
    let x3 := gfMult b x2 m
    let x6 := gfMult x3 x3 m
    gfMult b x6 m

/-- GFMUL (R125). -/
def execGfmul (s : State) : Host.Outcome State Fault Refusal :=
  .next (s.diagnose (s.gfmulOperands.map fun x => (gfMult x.1 x.2.1 x.2.2).setWidth 32))

/-- GFEXP7 (R126). -/
def execGfexp7 (s : State) : Host.Outcome State Fault Refusal :=
  .next (s.diagnose (s.gfexp7Operands.map fun x => (gfExp7 x.1 x.2).setWidth 32))

end Sys2Proof.Machine
end

