-- ==== Sys2Proof/Machine/KeySchedule.lean ====
section
/-! DEFINITION. The key-schedule expander (42_key_schedule.md), and the commands KEYSET and ZEROIZE. -/

namespace Sys2Proof.Machine

/-- The buffer of four key words (R171). -/
abbrev KeyBuf := Vector KeyWord 4

/-- KeyWords(o) (R171): word `j` is the byte pair at `(3-j)*2`, first byte high. -/
def keyWords (key : Nat → Byte) (o : Nat) : KeyBuf :=
  Vector.ofFn fun j => key (o + (3 - j.val) * 2) ++ key (o + (3 - j.val) * 2 + 1)

/-- LevelParams(lvl) (R172): size and rounds. -/
def levelParams (lvl : Int) : Nat × Nat :=
  if lvl < 1 then (1, 8) else (lvl.toNat, 16 * lvl.toNat)

/-- BitStep (R173): the lowest bit of a word moves into the accumulator, and its complement enters the word at bit 15. -/
def bitStep (kb : KeyBuf) (w : Fin 4) (acc : SubWord) : KeyBuf × SubWord :=
  let bit : BitVec 1 := kb[w].extractLsb' 0 1
  (kb.set w ((kb[w] >>> 1) ||| ((bit ^^^ 1).setWidth 16 <<< 15)), (acc <<< 1) ||| bit.setWidth 20)

/-- sk[j] of an entry, for j in 0..2. -/
def SubKey.get (sk : SubKey) (j : Nat) : SubWord :=
  match j with
  | 0 => sk.sk0
  | 1 => sk.sk1
  | _ => sk.sk2

/-- An entry with sk[j] replaced, for j in 0..2. -/
def SubKey.set (sk : SubKey) (j : Nat) (v : SubWord) : SubKey :=
  match j with
  | 0 => { sk with sk0 := v }
  | 1 => { sk with sk1 := v }
  | _ => { sk with sk2 := v }

/-- Sub-step `k` of iteration `j` of R174: BitStep on word `(kr + k) mod 4` and accumulator `j mod 3`. -/
def subStep (kr : Fin 4) (j : Nat) (x : KeyBuf × SubKey) (k : Nat) : KeyBuf × SubKey :=
  let r := bitStep x.1 (Fin.ofNat 4 (kr.val + k)) (x.2.get (j % 3))
  (r.1, x.2.set (j % 3) r.2)

/-- Iteration `j` of R174: four sub-steps. -/
def iteration (kr : Fin 4) (x : KeyBuf × SubKey) (j : Nat) : KeyBuf × SubKey :=
  (List.range 4).foldl (subStep kr j) x

/-- One entry of R174: the accumulators start at 0 and run 15 iterations. -/
def expandEntry (kb : KeyBuf) (kr : Fin 4) : KeyBuf × SubKey :=
  (List.range 15).foldl (iteration kr) (kb, SubKey.zero)

/-- Expand8 (R174): one entry for each rotation index, the buffer carried over; the mutated buffer and the entries in order. -/
def expand8 : KeyBuf → List (Fin 4) → KeyBuf × List SubKey
  | kb, [] => (kb, [])
  | kb, kr :: rot =>
    let x := expandEntry kb kr
    let y := expand8 x.1 rot
    (y.1, x.2 :: y.2)

/-- Write entries S[n], S[n+1], ... (R174). -/
def putEntries : List SubKey → Nat → List SubKey → List SubKey
  | S, _, [] => S
  | S, n, e :: es => putEntries (S.set n e) (n + 1) es

/-- ICE_KEYROT[0..7] (R170). -/
def keyrotForward : List (Fin 4) := Config.keyrot.toList.take 8

/-- ICE_KEYROT[8..15] (R170). -/
def keyrotMirrored : List (Fin 4) := Config.keyrot.toList.drop 8

/-- The thin variant's eight entries (R176). -/
def thinEntries (key : Nat → Byte) : List SubKey := (expand8 (keyWords key 0) keyrotForward).2

/-- The two expansions of key block `i` (R177): forward, then mirrored on the same buffer, not reloaded. -/
def blockEntries (key : Nat → Byte) (i : Nat) : List SubKey × List SubKey :=
  let fwd := expand8 (keyWords key (8 * i)) keyrotForward
  (fwd.2, (expand8 fwd.1 keyrotMirrored).2)

/-- Key block `i` of the general variant (R177): rounds 8i.. forward, and rounds-8-8i.. mirrored. -/
def scheduleBlock (key : Nat → Byte) (rounds : Nat) (S : List SubKey) (i : Nat) : List SubKey :=
  let e := blockEntries key i
  putEntries (putEntries S (8 * i) e.1) (rounds - 8 - 8 * i) e.2

/-- KeySchedule (R180): `rounds` entries, by R176 when there are 8 and else by R177. Every entry is written once (R178), so
what the array holds before is not seen. -/
def keySchedule (key : Nat → Byte) (size rounds : Nat) : List SubKey :=
  let S := List.replicate rounds SubKey.zero
  if rounds = 8 then putEntries S 0 (thinEntries key)
  else (List.range size).foldl (scheduleBlock key rounds) S

/-- What KEYSET writes to SCHED (R182, R183): the schedule, and (0, 0, 0) from `rounds` on. -/
def loadedSched (nmax : Nat) (S : List SubKey) (rounds : Nat) : List SubKey :=
  (List.range (16 * nmax)).map fun r => if r < rounds then S.getD r SubKey.zero else SubKey.zero

/-- The success of KEYSET (R182): SCHED, SIZE, ROUNDS and KEYVALID. -/
def State.loadKey (s : State) (size rounds : Nat) : State :=
  { s with
    sched := loadedSched s.params.nmax (keySchedule s.keyByte size rounds) rounds
    size := BitVec.ofNat 32 size
    rounds := BitVec.ofNat 32 rounds
    keyvalid := true }

/-- The checks of KEYSET (R182, R252): LEVEL_RANGE, then BAD_KEYLEN (R181). -/
def State.keysetCheck (s : State) : ErrCode :=
  if (s.params.nmax : Int) < s.levelOperand then .levelRange
  else if s.keylen.toNat ≠ 8 * (levelParams s.levelOperand).1 then .badKeylen
  else .ok

/-- KEYSET (R182): the checks, and then the new schedule. -/
def execKeyset (s : State) : Host.Outcome State Fault Refusal :=
  match s.keysetCheck with
  | .ok => .next ((s.loadKey (levelParams s.levelOperand).1 (levelParams s.levelOperand).2).complete .ok)
  | c => .next (s.complete c)

/-- What ZEROIZE writes (R184): every KEY byte 0, every SCHED word 0, SIZE, ROUNDS and KEYVALID 0. -/
def State.eraseKey (s : State) : State :=
  { s with
    key := []
    sched := List.replicate (16 * s.params.nmax) SubKey.zero
    size := 0
    rounds := 0
    keyvalid := false }

/-- ZEROIZE (R184). -/
def execZeroize (s : State) : Host.Outcome State Fault Refusal := .next (s.eraseKey.complete .ok)

end Sys2Proof.Machine
end

