-- ==== Sys2Proof/Machine/Tables.lean ====
section
/-! DEFINITION. The bit-scatter permutation, the S-box generator and its INIT step (41_tables.md), and the commands PERM32 and
SBOXRD. -/

namespace Sys2Proof.Machine

/-- ICE_PBOX[n] (R142). -/
def pboxMask (n : Nat) : Word := Config.pbox.toList.getD n 0

/-- The loop of R150 while `x` is not 0, with the steps left: `n` is the mask's index. -/
def perm32Loop : Nat → Nat → Word → Word → Word
  | 0, _, _, res => res
  | k + 1, n, x, res =>
    if x = 0 then res
    else perm32Loop k (n + 1) (x >>> 1) (if x.getLsbD 0 then res ||| pboxMask n else res)

/-- perm32(x) (R150); a 32-bit `x` is 0 after 32 steps. -/
def perm32 (x : Word) : Word := perm32Loop 32 0 x 0

/-- The column of an S-box index: i[8:1] (R152). -/
def sboxCol (i : SboxIndex) : Byte := i.extractLsb' 1 8

/-- The row of an S-box index: i[9] above i[0] (R152). -/
def sboxRow (i : SboxIndex) : Fin 4 := (i.extractLsb' 9 1 ++ i.extractLsb' 0 1 : BitVec 2).toFin

/-- The entry INIT builds for SBOX[k][i] (R153). -/
def sboxEntry (k : Fin 4) (i : SboxIndex) : Word :=
  let e := gfExp7 (sboxCol i ^^^ Config.sxor[k][sboxRow i]) Config.smod[k][sboxRow i]
  perm32 (e.setWidth 32 <<< (24 - 8 * k.val))

/-- S-box `k` as INIT builds it (R153). -/
def builtRow (k : Fin 4) : List Word := (List.range 1024).map fun i => sboxEntry k (BitVec.ofNat 10 i)

/-- The four S-boxes as INIT builds them (R153). -/
def builtSbox : List (List Word) := (List.finRange 4).map builtRow

/-- The INIT step (R153): builds SBOX, sets READY, ends the busy time; DONE, ERR and ERRCODE are not written. -/
def State.initStep (s : State) : State := { s with sbox := builtSbox, ready := true, pending := .idle }

/-- PERM32 (R155). -/
def execPerm32 (s : State) : Host.Outcome State Fault Refusal :=
  .next (s.diagnose (some (perm32 s.opa)))

/-- SBOXRD (R156). -/
def execSboxrd (s : State) : Host.Outcome State Fault Refusal :=
  .next (s.diagnose (s.sboxrdOperands.map fun x => s.sboxAt x.1 x.2))

end Sys2Proof.Machine
end

