-- ==== Sys2Proof/Machine/Dispatch.lean ====
section
/-! DEFINITION. The dispatch of R91: one arm for each command. -/

namespace Sys2Proof.Machine

def exec (i : Instr) (s : State) : Host.Outcome State Fault Refusal :=
  match i with
  | .nop => Sys2Proof.Machine.execNop s
  | .keyset => Sys2Proof.Machine.execKeyset s
  | .encrypt => Sys2Proof.Machine.execEncrypt s
  | .decrypt => Sys2Proof.Machine.execDecrypt s
  | .zeroize => Sys2Proof.Machine.execZeroize s
  | .gfmul => Sys2Proof.Machine.execGfmul s
  | .gfexp7 => Sys2Proof.Machine.execGfexp7 s
  | .perm32 => Sys2Proof.Machine.execPerm32 s
  | .sboxrd => Sys2Proof.Machine.execSboxrd s
  | .roundf => Sys2Proof.Machine.execRoundf s

end Sys2Proof.Machine
end

