-- ==== Sys2Proof/Machine/Flags.lean ====
section
/-! DEFINITION. The status flags (R23, R43), the views of STATUS, IRQEN, ID and PARAM that the host reads, and the interrupt
output (R260). -/

namespace Sys2Proof.Machine

/-- The number of an error code (R250). -/
def ErrCode.code : ErrCode → BitVec 4
  | .ok => 0
  | .illegalCmd => 1
  | .levelRange => 2
  | .badKeylen => 3
  | .noKey => 4
  | .badLen => 5
  | .badOperand => 6

/-- An unsupported host access sets BUSERR and nothing else (R63 to R66, R255). -/
def State.busError (s : State) : State := { s with buserr := true }

/-- A host write dropped because BUSY is 1 sets OVR and nothing else (R300, R255). -/
def State.overrun (s : State) : State := { s with ovr := true }

/-- A host write to STATUS (R23): bits 1, 5 and 6 of the value clear DONE, OVR and BUSERR; nothing else changes. -/
def State.writeStatus (s : State) (v : Word) : State :=
  { s with
    done := s.done && !v.getLsbD 1
    ovr := s.ovr && !v.getLsbD 5
    buserr := s.buserr && !v.getLsbD 6 }

/-- A host write to IRQEN (R25): bit 0 is stored, the others are ignored. -/
def State.writeIrqen (s : State) (v : Word) : State := { s with irqen := v.getLsbD 0 }

/-- STATUS as the host reads it (R23): reserved bits read 0. -/
def State.statusWord (s : State) : Word :=
  (0 : BitVec 16) ++ s.lastop ++ s.errcode.code ++ (0 : BitVec 1) ++ BitVec.ofBool s.buserr ++ BitVec.ofBool s.ovr ++
    BitVec.ofBool s.ready ++ BitVec.ofBool s.keyvalid ++ BitVec.ofBool s.err ++ BitVec.ofBool s.done ++ BitVec.ofBool s.busy

/-- IRQEN as the host reads it (R25): reserved bits read 0. -/
def State.irqenWord (s : State) : Word := (0 : BitVec 31) ++ BitVec.ofBool s.irqen

/-- ID (R21): the bytes "ICE" and the revision 1. -/
def idWord : Word := 0x4943_4501

/-- PARAM (R24): BUF_BYTES above NMAX. -/
def State.paramWord (s : State) : Word :=
  BitVec.ofNat 16 s.params.bufBytes ++ BitVec.ofNat 16 s.params.nmax

/-- The interrupt output (R260): level-sensitive, STATUS.DONE & IRQEN[0]. -/
def State.irq (s : State) : Bool := s.done && s.irqen

end Sys2Proof.Machine
end

