-- ==== Sys2Proof/Machine/HostPort.lean ====
section
/-! DEFINITION. The host port (20_memory.md): what a read or a write of an offset does, and the busy window (R300, R301). -/

namespace Sys2Proof.Machine

/-- The locations of the register map (R20) and the words of the windows (R62). -/
inductive Loc where
  | id | param | cmd | status | irqen | level | keylen | len | size | rounds | result | opa | opb | opc | opd
  | keyWord (w : Nat)
  | bufWord (w : Nat)
deriving DecidableEq, Repr

/-- The register at an offset below the windows (R20). -/
def regAt (o : Nat) : Option Loc :=
  match o with
  | 0x000 => some .id
  | 0x004 => some .param
  | 0x008 => some .cmd
  | 0x00C => some .status
  | 0x010 => some .irqen
  | 0x014 => some .level
  | 0x018 => some .keylen
  | 0x01C => some .len
  | 0x020 => some .size
  | 0x024 => some .rounds
  | 0x028 => some .result
  | 0x030 => some .opa
  | 0x034 => some .opb
  | 0x038 => some .opc
  | 0x03C => some .opd
  | _ => none

/-- What an aligned offset reaches (R20, R62); `none` is a reserved offset (R65). -/
def locAt (p : Params) (o : Nat) : Option Loc :=
  if o < 0x400 then regAt o
  else if o < 0x400 + 8 * p.nmax then some (.keyWord ((o - 0x400) / 4))
  else if 0x1000 ≤ o ∧ o < 0x1000 + p.bufBytes then some (.bufWord ((o - 0x1000) / 4))
  else none

/-- What an access reaches; `none` is an unsupported access: its width (R63), alignment (R64) or offset (R65). -/
def accessLoc (p : Params) (off : Offset) (size : Nat) : Option Loc :=
  if size = 4 ∧ off.toNat % 4 = 0 then locAt p off.toNat else none

/-- A location the engine writes: while BUSY is 1 its read is a draw (R301), else its value. -/
def State.readResult (s : State) (v : Word) : Word × State := if s.busy then s.draw else (v, s)

/-- A supported read: its value, and the state, which changes only where a draw is taken (R69, R301). -/
def State.readLoc (s : State) : Loc → Word × State
  | .id => (idWord, s)
  | .param => (s.paramWord, s)
  | .cmd => (0, s)
  | .status => (s.statusWord, s)
  | .irqen => (s.irqenWord, s)
  | .level => (s.level, s)
  | .keylen => (s.keylen, s)
  | .len => (s.len, s)
  | .size => s.readResult s.size
  | .rounds => s.readResult s.rounds
  | .result => s.readResult s.result
  | .opa => (s.opa, s)
  | .opb => (s.opb, s)
  | .opc => (s.opc, s)
  | .opd => (s.opd, s)
  | .keyWord _ => (0, s)
  | .bufWord w => s.readResult (s.memRead (4 * w))

/-- Read(off, size) (R60 to R66): an unsupported read returns 0 and sets BUSERR. -/
def State.hostRead (s : State) (off : Offset) (size : Nat) : Word × State :=
  match accessLoc s.params off size with
  | none => (0, s.busError)
  | some l => s.readLoc l

/-- A write that BUSY = 1 drops, which sets OVR (R300). -/
def State.unlessBusy (s t : State) : State := if s.busy then s.overrun else t

/-- A supported write (R61, R62, R66). -/
def State.writeLoc (s : State) (l : Loc) (v : Word) : State :=
  match l with
  | .id | .param | .size | .rounds | .result => s.busError
  | .status => s.writeStatus v
  | .irqen => s.writeIrqen v
  | .cmd => s.unlessBusy (s.accept v)
  | .level => s.unlessBusy { s with level := v }
  | .keylen => s.unlessBusy { s with keylen := v }
  | .len => s.unlessBusy { s with len := v }
  | .opa => s.unlessBusy { s with opa := v }
  | .opb => s.unlessBusy { s with opb := v }
  | .opc => s.unlessBusy { s with opc := v }
  | .opd => s.unlessBusy { s with opd := v }
  | .keyWord w => s.unlessBusy { s with key := keyWrite s.key (4 * w) v }
  | .bufWord w => s.unlessBusy (s.memWrite (4 * w) v)

/-- Write(off, size, v) (R60 to R66): an unsupported write sets BUSERR. -/
def State.hostWrite (s : State) (off : Offset) (size : Nat) (v : Word) : State :=
  match accessLoc s.params off size with
  | none => s.busError
  | some l => s.writeLoc l v

/-- One transaction of the host: a read's value goes to what the host has observed (log entry 5). -/
def State.performAccess (s : State) : Access → State
  | .read off size => (s.hostRead off size).2.observe (s.hostRead off size).1
  | .write off size v => s.hostWrite off size v

/-- Where a bus address reaches the port: HOST_BASE is the window's first address (R60, R71). An address outside the window
is no access of this block (log entry 15). -/
def busOffset (p : Params) (addr : Nat) : Option Offset :=
  if p.hostBase ≤ addr ∧ addr < p.hostBase + 0x2000 then some (BitVec.ofNat 13 (addr - p.hostBase)) else none

end Sys2Proof.Machine
end

