-- ==== Sys2Proof/Machine/HostAsm.lean ====
section
/-! DEFINITION. The host assembly language (R96) and its pseudo-instructions (R97), down to the transactions they stand for. -/

namespace Sys2Proof.Machine

/-- The offset of a location (R20, R96). DESIGN CHOICE (log entry 23): for `KEY+n` or `BUF+n` whose 0x400 + 4n or 0x1000 + 4n
is 0x2000 or more, the spec does not say what the line reaches; the model keeps offset bits 12 to 0, those the port decodes. -/
def Loc.offset : Loc → Offset
  | .id => 0x000
  | .param => 0x004
  | .cmd => 0x008
  | .status => 0x00C
  | .irqen => 0x010
  | .level => 0x014
  | .keylen => 0x018
  | .len => 0x01C
  | .size => 0x020
  | .rounds => 0x024
  | .result => 0x028
  | .opa => 0x030
  | .opb => 0x034
  | .opc => 0x038
  | .opd => 0x03C
  | .keyWord n => BitVec.ofNat 13 (0x400 + 4 * n)
  | .bufWord n => BitVec.ofNat 13 (0x1000 + 4 * n)

/-- `<loc>` of R96: a register name, KEY+n, BUF+n, or a bare numeric offset. -/
inductive AsmLoc where
  | loc (l : Loc)
  | bare (off : Offset)
deriving DecidableEq, Repr

/-- offset(loc) of R96. -/
def AsmLoc.offset : AsmLoc → Offset
  | .loc l => l.offset
  | .bare off => off

/-- A line of host assembly (R96) or a pseudo-instruction (R97). -/
inductive AsmLine where
  | wr (l : AsmLoc) (v : Word)
  | rd (l : AsmLoc)
  | cmd (i : Instr)
  | wait
  | run (i : Instr)
  | ldkey (vs : List Word)
  | ldbuf (vs : List Word)
  | ack
  | clrerr
deriving DecidableEq, Repr

/-- `wr <loc>, <imm32>` (R96). -/
def wrOp (l : AsmLoc) (v : Word) : HostOp := .access (.write l.offset 4 v)

/-- `rd <loc>` (R96). A value the line compares is compared by the program's reader (log entry 19). -/
def rdOp (l : AsmLoc) : HostOp := .access (.read l.offset 4)

/-- `cmd <MNEMONIC>` (R97). -/
def cmdOp (i : Instr) : HostOp := wrOp (.loc .cmd) (encode i)

/-- Words written to successive words of a window, from word `n` on. -/
def windowOps (mk : Nat → Loc) : Nat → List Word → List HostOp
  | _, [] => []
  | n, v :: vs => wrOp (.loc (mk n)) v :: windowOps mk (n + 1) vs

/-- The expansions of R97. -/
def AsmLine.expand : AsmLine → List HostOp
  | .wr l v => [wrOp l v]
  | .rd l => [rdOp l]
  | .cmd i => [cmdOp i]
  | .wait => [.wait]
  | .run i => [cmdOp i, .wait]
  | .ldkey vs => windowOps .keyWord 0 vs
  | .ldbuf vs => windowOps .bufWord 0 vs
  | .ack => [wrOp (.loc .status) 0x0000_0002]
  | .clrerr => [wrOp (.loc .status) 0x0000_0062]

/-- A host program as the transactions it stands for. -/
def assemble (ls : List AsmLine) : List HostOp := ls.flatMap AsmLine.expand

end Sys2Proof.Machine
end

