-- ==== Sys2Proof/Machine/Engine.lean ====
section
/-! DEFINITION. The transitions of the two agents (R9, R73): the engine's step (R39, R91) and the host's (R96, R97). -/

namespace Sys2Proof.Machine

/-- The engine step for PENDING = CMD(w) (R91): an illegal word completes with ILLEGAL_CMD and changes nothing else (R94). -/
def runCommand (w : Word) (s : State) : Host.Outcome State Fault Refusal :=
  match decode w with
  | some i => exec i s
  | none => .next (s.complete .illegalCmd)

/-- The engine's turn (R39): it has a step only when PENDING is not NONE; else nothing changes (R268; log entry 11). -/
def engineStep (s : State) : Host.Outcome State Fault Refusal :=
  match s.pending with
  | .idle => .next s
  | .init => .next s.initStep
  | .cmd w => runCommand w s

/-- One read of STATUS by the loop `wait` (R97): the loop ends when bit 0 of the value read is 0. -/
def State.waitStep (s : State) (rest : List HostOp) : State :=
  let r := s.hostRead Loc.status.offset 4
  let t := r.2.observe r.1
  if r.1.getLsbD 0 then t else { t with program := rest }

/-- The host's turn: the next transaction of its program; a host with nothing to do changes nothing (log entry 11). -/
def hostStep (s : State) : State :=
  match s.program with
  | [] => s
  | .access a :: rest => State.performAccess { s with program := rest } a
  | .wait :: rest => s.waitStep rest

/-- Where `turns` does not say who moves next, the engine moves when it has an operation to perform, which is the fairness of
R308, and else the host (log entry 4). -/
def defaultTurn (s : State) : Turn := if s.busy then .engine else .host

/-- Who moves next, and the turns left after it. -/
def nextTurn (s : State) : Turn × List Turn :=
  match s.turns with
  | [] => (defaultTurn s, [])
  | t :: ts => (t, ts)

end Sys2Proof.Machine
end

