-- ==== Sys2Proof/Machine/Step.lean ====
section
/-! DEFINITION. One transition of the machine (R73): a host access, an engine step, or the reset input. -/

namespace Sys2Proof.Machine

/-- One transition: the one whose turn it is moves. -/
def step (s : State) : Host.Outcome State Fault Refusal :=
  let s' : State := { s with turns := (nextTurn s).2 }
  match (nextTurn s).1 with
  | .host => .next (hostStep s')
  | .engine => engineStep s'
  | .reset => .next s'.resetInput

/-- The command word as PENDING, and the engine's turn next: the very next step runs it. On this block a command is taken from
the CMD write, not fetched (R78), so this stands for the acceptance of the word (log entry 6). -/
def State.withFetchWord (s : State) (nbits w : Nat) : State :=
  { s with pending := .cmd (tableWord nbits w), turns := .engine :: s.turns }

end Sys2Proof.Machine
end

