-- ==== Sys2Proof/Safety.lean ====
section
/-! DEFINITION. What a safe run of the block is, and the words claims are stated in: the invariant of every state a run reaches,
the part of a state the host can learn, and the closed forms the spec gives for the arithmetic. -/

namespace Sys2Proof.Machine

/-- The invariant of the block. No step ever faults (R257, R307), so a run is safe when every state of it meets this. -/
structure State.Inv (s : State) : Prop where
  /-- READY is set by INIT and cleared by reset only, and reset makes INIT pending (R38, R290). -/
  ready_iff : s.ready = false ↔ s.pending = .init
  /-- SBOX is what INIT built, and nothing before (R35, R153). -/
  sbox_eq : s.sbox = if s.ready then builtSbox else []
  /-- KEY is in canonical form, within KEY[0 .. 8*NMAX-1] (R33). -/
  key_wf : keyWf s.params s.key = true
  /-- BUF is in canonical form, within BUF[0 .. BUF_BYTES-1] (R34). -/
  buf_wf : bufWf s.params s.buf = true
  /-- SCHED has 16*NMAX entries (R36). -/
  sched_length : s.sched.length = 16 * s.params.nmax
  /-- No subkey stands at or above ROUNDS (R183, R184). -/
  sched_zero : ∀ r, s.rounds.toNat ≤ r → s.schedAt r = SubKey.zero
  /-- A loaded schedule's size and rounds (R29, R30). -/
  loaded : s.keyvalid = true → 1 ≤ s.size.toNat ∧ s.size.toNat ≤ s.params.nmax ∧
    ((s.size.toNat = 1 ∧ s.rounds.toNat = 8) ∨ s.rounds.toNat = 16 * s.size.toNat)
  /-- Without a schedule SIZE and ROUNDS are 0 (R29, R30). -/
  unloaded : s.keyvalid = false → s.size = 0 ∧ s.rounds = 0
  /-- While busy the flags of a completion are clear (R39, R43). -/
  busy_clear : s.busy = true → s.done = false ∧ s.err = false ∧ s.errcode = .ok
  /-- ERR is set exactly when ERRCODE is not OK (R256). -/
  err_iff : s.err = true ↔ s.errcode ≠ .ok
  /-- LASTOP is the opcode of the command pending (R39). -/
  lastop_eq : ∀ w, s.pending = .cmd w → s.lastop = w.extractLsb' 0 4

/-- The state without its secrets, the key bytes and the schedule (R263). -/
def State.publicView (s : State) : State := { s with key := [], sched := [] }

/-- The state but for who moves next: what a transition finds. -/
def State.taken (s : State) : State := { s with turns := (nextTurn s).2 }

/-- The access that the host's turn performs: that of its program's next line, where `wait` reads STATUS (R96, R97). -/
def State.nextAccess (s : State) : Option Access :=
  match s.program with
  | [] => none
  | .access a :: _ => some a
  | .wait :: _ => some (.read Loc.status.offset 4)

/-- The host's turn writes `v` to the location `l`. -/
def State.writesTo (s : State) (l : Loc) (v : Word) : Prop :=
  ∃ off size, s.nextAccess = some (.write off size v) ∧ accessLoc s.params off size = some l

/-- The host's turn has the engine accept the command word `w` (R39). -/
def State.accepts (s : State) (w : Word) : Prop := s.busy = false ∧ s.writesTo .cmd w

/-- The host's turn writes STATUS with a 1 in bit `n` (R23: W1C). -/
def State.clearsBit (s : State) (n : Nat) : Prop := ∃ v, s.writesTo .status v ∧ v.getLsbD n = true

/-- The host's turn makes an unsupported access: of another width, misaligned, at a reserved offset (R63 to R65), or a write to
a read-only register (R66). -/
def State.unsupported (s : State) : Prop :=
  (∃ off size, s.nextAccess = some (.read off size) ∧ accessLoc s.params off size = none) ∨
  (∃ off size v, s.nextAccess = some (.write off size v) ∧ accessLoc s.params off size = none) ∨
  ∃ l v, l ∈ [Loc.id, .param, .size, .rounds, .result] ∧ s.writesTo l v

/-- The locations a write to which BUSY = 1 drops (R300). -/
def Loc.droppedWhileBusy (l : Loc) : Prop :=
  l ∈ [Loc.cmd, .level, .keylen, .len, .opa, .opb, .opc, .opd] ∨ (∃ w, l = .keyWord w) ∨ ∃ w, l = .bufWord w

/-- A value as a polynomial over GF(2): bit i is the coefficient of x^i (R122). -/
noncomputable def polyOf {n : Nat} (v : BitVec n) : Polynomial (ZMod 2) :=
  ∑ i ∈ Finset.range n, if v.getLsbD i then Polynomial.X ^ i else 0

/-- The destination d of each source bit s of the permutation, as R142's second table lists it. -/
def pboxDest : List Nat :=
  [0, 7, 10, 13, 19, 21, 24, 30, 3, 5, 8, 14, 16, 23, 26, 29] ++
  [2, 4, 9, 15, 17, 22, 27, 28, 1, 6, 11, 12, 18, 20, 25, 31]

/-- The output bit set of each S-box (R143). -/
def sboxBits (k : Fin 4) : Word :=
  match k with
  | 0 => 0x8214_1842
  | 1 => 0x1842_8214
  | 2 => 0x2481_4128
  | 3 => 0x4128_2481

/-- The offsets of R65 at which an aligned 4-byte access reaches nothing. -/
def reservedOffset (p : Params) (o : Nat) : Prop :=
  o = 0x02C ∨ (0x040 ≤ o ∧ o ≤ 0x3FC) ∨ (0x400 + 8 * p.nmax ≤ o ∧ o ≤ 0x7FC) ∨ (0x800 ≤ o ∧ o ≤ 0xFFC) ∨
    (0x1000 + p.bufBytes ≤ o ∧ o ≤ 0x1FFC)

/-- The size that a level selects (R172). -/
def sizeForLevel (lvl : Int) : Nat := if lvl < 1 then 1 else lvl.toNat

/-- The rounds that a level selects (R172). -/
def roundsForLevel (lvl : Int) : Nat := if lvl < 1 then 8 else 16 * lvl.toNat

end Sys2Proof.Machine
end

