-- ==== Sys2Proof/Certificates/Slice0/Obligations.lean ====
section
/-! DEFINITION. The statements about the machine, from the numbered rules of spec/. Each holds for every instance of the
hardware (every NMAX, BUF_BYTES and HOST_BASE), since the parameters are a field of the state. -/

open Sys2Proof Sys2Proof.Machine

/-! Encoding. -/

/-- A few command words of R92, and two illegal words of R94: a sanity statement. -/
def Obligations.DecodeKnownWords : Prop :=
  decode 0x0000_0000 = some .nop ∧ decode 0x0000_0001 = some .keyset ∧ decode 0x0000_0003 = some .decrypt ∧
  decode 0x0000_0009 = some .gfexp7 ∧ decode 0x0000_000A = some .perm32 ∧ decode 0x0000_000C = some .roundf ∧
  decode 0x0000_0005 = none ∧ decode 0x0000_0010 = none

/-- R92: each command has exactly one word, since the mask of every row is all ones. -/
def Obligations.OpcodeMapIsExact : Prop :=
  ∀ w : Word,
    (decode w = some .nop ↔ w = 0x0000_0000) ∧ (decode w = some .keyset ↔ w = 0x0000_0001) ∧
    (decode w = some .encrypt ↔ w = 0x0000_0002) ∧ (decode w = some .decrypt ↔ w = 0x0000_0003) ∧
    (decode w = some .zeroize ↔ w = 0x0000_0004) ∧ (decode w = some .gfmul ↔ w = 0x0000_0008) ∧
    (decode w = some .gfexp7 ↔ w = 0x0000_0009) ∧ (decode w = some .perm32 ↔ w = 0x0000_000A) ∧
    (decode w = some .sboxrd ↔ w = 0x0000_000B) ∧ (decode w = some .roundf ↔ w = 0x0000_000C)

/-- Decode and encode agree in both directions, and exactly the well-formed words decode (R90, R92, R94). -/
def Obligations.DecodeEncodeAgree : Prop :=
  (∀ i : Instr, decode (encode i) = some i) ∧
  (∀ (w : Word) (i : Instr), decode w = some i → encode i = w) ∧
  (∀ w : Word, decode w = none ↔ wellFormedWord w = false)

/-! Who moves, and what a step runs. -/

/-- A step runs the decoded command (R91): when the engine's turn is next, or nobody's turn is said, and PENDING holds a word
that decodes to a command, the step is that command's meaning. That the engine moves when nobody's turn is said is the model's
choice (log entry 4). -/
def Obligations.StepRunsDecodedCommand : Prop :=
  ∀ (s : State) (w : Word) (i : Instr), s.pending = .cmd w → decode w = some i →
    (∀ ts, s.turns = .engine :: ts → step s = exec i { s with turns := ts }) ∧
    (s.turns = [] → step s = exec i s)

/-- R94: an illegal word is one with a reserved bit set or a reserved opcode; it completes with ERR = 1 and ERRCODE =
ILLEGAL_CMD, and changes nothing else. -/
def Obligations.IllegalWordCompletesWithError : Prop :=
  ∀ (s : State) (w : Word), s.pending = .cmd w → (nextTurn s).1 = .engine →
    (w.extractLsb' 4 28 ≠ 0 ∨ (w.extractLsb' 0 4).toNat ∈ [0x5, 0x6, 0x7, 0xD, 0xE, 0xF]) →
    step s = .next { s.taken with pending := .idle, done := true, err := true, errcode := .illegalCmd }

/-- R153: INIT builds every S-box entry by the generator's formula, sets READY, ends the busy time, and changes nothing else. -/
def Obligations.InitBuildsSboxes : Prop :=
  ∀ s : State, s.pending = .init → (nextTurn s).1 = .engine →
    ∃ sb, step s = .next { s.taken with sbox := sb, ready := true, pending := .idle } ∧
      ∀ (k row : Fin 4) (i : SboxIndex), row.val = 2 * (i.getLsbD 9).toNat + (i.getLsbD 0).toNat →
        State.sboxAt { s.taken with sbox := sb, ready := true, pending := .idle } k i =
          perm32 ((gfExp7 (i.extractLsb' 1 8 ^^^ Config.sxor[k][row]) Config.smod[k][row]).setWidth 32 <<< (24 - 8 * k.val))

/-- The host's turn performs the next line of its program (R73, R96, R97): a write, a read, or one read of `wait`, which stays
while BUSY = 1. The program and the observed values are the model's own fields (log entry 5), that a host with nothing to do
changes nothing is log entry 11, and that each read of `wait` is one transition is log entry 19. -/
def Obligations.HostTurnPerformsTransaction : Prop :=
  ∀ s : State, (nextTurn s).1 = .host →
    (s.program = [] → step s = .next s.taken) ∧
    (∀ off size v rest, s.program = .access (.write off size v) :: rest →
      step s = .next (State.hostWrite { s.taken with program := rest } off size v)) ∧
    (∀ off size rest, s.program = .access (.read off size) :: rest →
      step s = .next (State.observe (State.hostRead { s.taken with program := rest } off size).2
        (State.hostRead { s.taken with program := rest } off size).1)) ∧
    (∀ rest, s.program = .wait :: rest →
      (s.busy = true → step s = .next { s.taken with observed := s.observed ++ [s.statusWord] }) ∧
      (s.busy = false →
        step s = .next { s.taken with observed := s.observed ++ [s.statusWord], program := rest }))

/-- Every step of every state answers a next state: every operation ends (R307), and none faults or is refused (R257; that the
model has no fault at all is log entry 14). That the turn of an agent with nothing to do also answers one is log entry 11. -/
def Obligations.EveryStepAnswersNext : Prop :=
  ∀ s : State, ∃ t, step s = .next t

/-! The invariant and reset. -/

/-- Every instance of the machine meets the invariant right after reset, the instance of State.reset (log entry 1) among them. -/
def Obligations.ResetMeetsInvariant : Prop :=
  (∀ p : Params, State.Inv (State.resetWith p)) ∧ State.Inv State.reset

/-- Every step keeps the invariant, from every state that meets it. -/
def Obligations.StepKeepsInvariant : Prop :=
  ∀ s t : State, State.Inv s → step s = .next t → State.Inv t

/-- The values of all state after the reset input, from every state (R44, R290, R291). That the reset input is one transition
that keeps the parameters is log entry 12; what R44 calls unspecified is, in the model, no listed byte of BUF (log entry 7) and
an empty SBOX (log entry 8). -/
def Obligations.ResetGivesResetValues : Prop :=
  ∀ s : State, (nextTurn s).1 = .reset → ∃ t, step s = .next t ∧
    t.params = s.params ∧ idWord = 0x4943_4501 ∧
    t.paramWord.toNat = 65536 * s.params.bufBytes + s.params.nmax ∧
    t.statusWord = 0x0000_0001 ∧ t.irqenWord = 0 ∧ t.irq = false ∧
    t.level = 0 ∧ t.keylen = 0 ∧ t.len = 0 ∧ t.size = 0 ∧ t.rounds = 0 ∧ t.result = 0 ∧
    t.opa = 0 ∧ t.opb = 0 ∧ t.opc = 0 ∧ t.opd = 0 ∧
    (∀ a, t.keyByte a = 0) ∧ t.sched.length = 16 * s.params.nmax ∧ (∀ r, t.schedAt r = SubKey.zero) ∧
    t.keyvalid = false ∧ t.ready = false ∧ t.pending = .init ∧
    (∀ a, Memory.get? t.buf a = none) ∧ t.sbox = []

/-! The commands: what each writes, and that nothing else changes. -/

/-- R228: NOP completes with OK and changes nothing else. -/
def Obligations.NopCompletes : Prop :=
  ∀ s : State, exec .nop s = .next { s with pending := .idle, done := true, err := false, errcode := .ok }

/-- R125: GFMUL writes the product to RESULT, or ends with BAD_OPERAND where an operand is out of range. -/
def Obligations.GfmulResult : Prop :=
  ∀ s : State,
    (s.opa.extractLsb' 8 24 = 0 ∧ s.opb.extractLsb' 8 24 = 0 ∧ s.opc.extractLsb' 9 23 = 0 ∧ s.opc.getLsbD 8 = true →
      exec .gfmul s = .next
        { s with
          result := (gfMult (s.opa.extractLsb' 0 8) (s.opb.extractLsb' 0 8) (s.opc.extractLsb' 0 9)).setWidth 32,
          pending := .idle, done := true, err := false, errcode := .ok }) ∧
    (s.opa.extractLsb' 8 24 ≠ 0 ∨ s.opb.extractLsb' 8 24 ≠ 0 ∨ s.opc.extractLsb' 9 23 ≠ 0 ∨ s.opc.getLsbD 8 = false →
      exec .gfmul s = .next { s with pending := .idle, done := true, err := true, errcode := .badOperand })

/-- R126: GFEXP7 writes the seventh power to RESULT, or ends with BAD_OPERAND where an operand is out of range; OPB and OPD are
ignored. -/
def Obligations.Gfexp7Result : Prop :=
  ∀ s : State,
    (s.opa.extractLsb' 8 24 = 0 ∧ s.opc.extractLsb' 9 23 = 0 ∧ s.opc.getLsbD 8 = true →
      exec .gfexp7 s = .next
        { s with
          result := (gfExp7 (s.opa.extractLsb' 0 8) (s.opc.extractLsb' 0 9)).setWidth 32,
          pending := .idle, done := true, err := false, errcode := .ok }) ∧
    (s.opa.extractLsb' 8 24 ≠ 0 ∨ s.opc.extractLsb' 9 23 ≠ 0 ∨ s.opc.getLsbD 8 = false →
      exec .gfexp7 s = .next { s with pending := .idle, done := true, err := true, errcode := .badOperand })

/-- R155: PERM32 writes perm32(OPA) to RESULT and completes with OK for every OPA. -/
def Obligations.Perm32Result : Prop :=
  ∀ s : State,
    exec .perm32 s = .next
      { s with result := perm32 s.opa, pending := .idle, done := true, err := false, errcode := .ok }

/-- R156: SBOXRD writes the S-box entry to RESULT, or ends with BAD_OPERAND. In a state a run reaches with the S-boxes built,
that is the entry INIT computed (R153). -/
def Obligations.SboxrdResult : Prop :=
  ∀ (s : State) (k : Fin 4),
    (s.opa.extractLsb' 12 20 = 0 → k.val = (s.opa.extractLsb' 10 2).toNat →
      exec .sboxrd s = .next
        { s with
          result := s.sboxAt k (s.opa.extractLsb' 0 10),
          pending := .idle, done := true, err := false, errcode := .ok } ∧
      (s.Inv → s.ready = true → s.sboxAt k (s.opa.extractLsb' 0 10) = sboxEntry k (s.opa.extractLsb' 0 10))) ∧
    (s.opa.extractLsb' 12 20 ≠ 0 →
      exec .sboxrd s = .next { s with pending := .idle, done := true, err := true, errcode := .badOperand })

/-- R206: ROUNDF writes f(OPA, (OPB, OPC, OPD)) to RESULT, or ends with BAD_OPERAND where a subkey operand has more than 20
bits. -/
def Obligations.RoundfResult : Prop :=
  ∀ s : State,
    (s.opb.extractLsb' 20 12 = 0 ∧ s.opc.extractLsb' 20 12 = 0 ∧ s.opd.extractLsb' 20 12 = 0 →
      exec .roundf s = .next
        { s with
          result := roundF s.sboxAt s.opa ⟨s.opb.extractLsb' 0 20, s.opc.extractLsb' 0 20, s.opd.extractLsb' 0 20⟩,
          pending := .idle, done := true, err := false, errcode := .ok }) ∧
    (s.opb.extractLsb' 20 12 ≠ 0 ∨ s.opc.extractLsb' 20 12 ≠ 0 ∨ s.opd.extractLsb' 20 12 ≠ 0 →
      exec .roundf s = .next { s with pending := .idle, done := true, err := true, errcode := .badOperand })

/-- R182, R183: KEYSET loads the schedule that LEVEL and KEY select, with no subkey left above it, or ends with LEVEL_RANGE or
BAD_KEYLEN, in that order, and then changes nothing else. -/
def Obligations.KeysetLoadsSchedule : Prop :=
  ∀ (s : State) (lvl : Int), lvl = s.level.toInt →
    (lvl ≤ s.params.nmax → s.keylen.toNat = 8 * sizeForLevel lvl →
      ∃ S : List SubKey,
        exec .keyset s = .next
          { s with
            sched := S, size := BitVec.ofNat 32 (sizeForLevel lvl), rounds := BitVec.ofNat 32 (roundsForLevel lvl),
            keyvalid := true, pending := .idle, done := true, err := false, errcode := .ok } ∧
        S.length = 16 * s.params.nmax ∧
        (∀ r, r < roundsForLevel lvl →
          S[r]? = (keySchedule s.keyByte (sizeForLevel lvl) (roundsForLevel lvl))[r]? ∧ S[r]? ≠ none) ∧
        (∀ r, roundsForLevel lvl ≤ r → r < 16 * s.params.nmax → S[r]? = some SubKey.zero)) ∧
    (s.params.nmax < lvl →
      exec .keyset s = .next { s with pending := .idle, done := true, err := true, errcode := .levelRange }) ∧
    (lvl ≤ s.params.nmax → s.keylen.toNat ≠ 8 * sizeForLevel lvl →
      exec .keyset s = .next { s with pending := .idle, done := true, err := true, errcode := .badKeylen })

/-- R184: ZEROIZE erases every key byte and every subkey, and SIZE, ROUNDS and KEYVALID; nothing else changes but the
completion, and after it ENCRYPT and DECRYPT end with NO_KEY. -/
def Obligations.ZeroizeErasesKeys : Prop :=
  ∀ s : State, ∃ (K : List Host.Cell) (S : List SubKey) (t : State),
    t = { s with key := K, sched := S, size := 0, rounds := 0, keyvalid := false,
                 pending := .idle, done := true, err := false, errcode := .ok } ∧
    exec .zeroize s = .next t ∧
    (∀ a, t.keyByte a = 0) ∧ S.length = 16 * s.params.nmax ∧ (∀ r, t.schedAt r = SubKey.zero) ∧
    exec .encrypt t = .next { t with err := true, errcode := .noKey } ∧
    exec .decrypt t = .next { t with err := true, errcode := .noKey }

/-- R226, with R223 and R225: ENCRYPT replaces each block of BUF[0 .. LEN-1] by its encryption under the loaded schedule and
changes no other byte and no other state; without a key it ends with NO_KEY, and with a bad length with BAD_LEN. -/
def Obligations.EncryptTransformsBuffer : Prop :=
  ∀ s : State,
    (s.keyvalid = true → s.len.toNat ≠ 0 → s.len.toNat % 8 = 0 → s.len.toNat ≤ s.params.bufBytes →
      ∃ (B : List Host.Cell) (t : State),
        t = { s with buf := B, pending := .idle, done := true, err := false, errcode := .ok } ∧
        exec .encrypt s = .next t ∧
        (∀ b, 8 * b < s.len.toNat →
          (t.memRead (8 * b), t.memRead (8 * b + 4)) =
            encryptBlock (roundF s.sboxAt) s.schedAt s.rounds.toNat (s.memRead (8 * b), s.memRead (8 * b + 4))) ∧
        (∀ a, s.len.toNat ≤ a → t.bufByte a = s.bufByte a)) ∧
    (s.keyvalid = false →
      exec .encrypt s = .next { s with pending := .idle, done := true, err := true, errcode := .noKey }) ∧
    (s.keyvalid = true → (s.len.toNat = 0 ∨ s.len.toNat % 8 ≠ 0 ∨ s.params.bufBytes < s.len.toNat) →
      exec .encrypt s = .next { s with pending := .idle, done := true, err := true, errcode := .badLen })

/-- R227, with R223 and R225: as for ENCRYPT, with the decryption of each block. -/
def Obligations.DecryptTransformsBuffer : Prop :=
  ∀ s : State,
    (s.keyvalid = true → s.len.toNat ≠ 0 → s.len.toNat % 8 = 0 → s.len.toNat ≤ s.params.bufBytes →
      ∃ (B : List Host.Cell) (t : State),
        t = { s with buf := B, pending := .idle, done := true, err := false, errcode := .ok } ∧
        exec .decrypt s = .next t ∧
        (∀ b, 8 * b < s.len.toNat →
          (t.memRead (8 * b), t.memRead (8 * b + 4)) =
            decryptBlock (roundF s.sboxAt) s.schedAt s.rounds.toNat (s.memRead (8 * b), s.memRead (8 * b + 4))) ∧
        (∀ a, s.len.toNat ≤ a → t.bufByte a = s.bufByte a)) ∧
    (s.keyvalid = false →
      exec .decrypt s = .next { s with pending := .idle, done := true, err := true, errcode := .noKey }) ∧
    (s.keyvalid = true → (s.len.toNat = 0 ∨ s.len.toNat % 8 ≠ 0 ∨ s.params.bufBytes < s.len.toNat) →
      exec .decrypt s = .next { s with pending := .idle, done := true, err := true, errcode := .badLen })

/-- R254: a command that ends with an error changes only STATUS: BUSY, DONE, ERR and ERRCODE. -/
def Obligations.ErrorsChangeOnlyStatus : Prop :=
  ∀ (s t : State) (w : Word), s.pending = .cmd w → (nextTurn s).1 = .engine → step s = .next t → t.errcode ≠ .ok →
    t = { s.taken with pending := .idle, done := true, err := true, errcode := t.errcode }

/-- Which command can end with which error (R251), and that ERR and ERRCODE are set together (R256). -/
def Obligations.CommandsReportOnlyTheirErrors : Prop :=
  ∀ (i : Instr) (s t : State), exec i s = .next t →
    t.pending = .idle ∧ t.done = true ∧ (t.err = true ↔ t.errcode ≠ .ok) ∧
    (i ∈ [Instr.nop, .zeroize, .perm32] → t.errcode = .ok) ∧
    (i = .keyset → t.errcode ∈ [ErrCode.ok, .levelRange, .badKeylen]) ∧
    (i ∈ [Instr.encrypt, .decrypt] → t.errcode ∈ [ErrCode.ok, .noKey, .badLen]) ∧
    (i ∈ [Instr.gfmul, .gfexp7, .sboxrd, .roundf] → t.errcode ∈ [ErrCode.ok, .badOperand])

/-- The frame of every command: the parameters, the operand registers, IRQEN, OVR, BUSERR, LASTOP, READY, SBOX and the host are
never written by a command (R32, R35, R42, R43); SCHED, SIZE, ROUNDS and KEYVALID only by KEYSET and ZEROIZE (R29, R30, R36,
R37); KEY only by ZEROIZE (R33); BUF only by ENCRYPT and DECRYPT (R34); RESULT only by the diagnostic commands (R31). -/
def Obligations.CommandFrames : Prop :=
  ∀ (i : Instr) (s t : State), exec i s = .next t →
    (t.params = s.params ∧ t.level = s.level ∧ t.keylen = s.keylen ∧ t.len = s.len ∧
      t.opa = s.opa ∧ t.opb = s.opb ∧ t.opc = s.opc ∧ t.opd = s.opd ∧
      t.irqen = s.irqen ∧ t.ovr = s.ovr ∧ t.buserr = s.buserr ∧ t.lastop = s.lastop ∧ t.ready = s.ready ∧ t.sbox = s.sbox ∧
      t.epoch = s.epoch ∧ t.draws = s.draws ∧ t.program = s.program ∧ t.observed = s.observed ∧ t.turns = s.turns) ∧
    (i ∉ [Instr.keyset, .zeroize] →
      t.sched = s.sched ∧ t.size = s.size ∧ t.rounds = s.rounds ∧ t.keyvalid = s.keyvalid) ∧
    (i ≠ .zeroize → t.key = s.key) ∧
    (i ∉ [Instr.encrypt, .decrypt] → t.buf = s.buf) ∧
    (i ∉ [Instr.gfmul, .gfexp7, .perm32, .sboxrd, .roundf] → t.result = s.result)

/-! The arithmetic. -/

/-- R122: gf_mult is the product of polynomials over GF(2) reduced modulo m, for every m with bit 8 set; so it is commutative
and associative, 1 is its identity and 0 gives 0. -/
def Obligations.GfMultIsPolynomialProduct : Prop :=
  ∀ m : Modulus, m.getLsbD 8 = true →
    (∀ a b : Byte, polyOf (gfMult a b m) = (polyOf a * polyOf b) %ₘ polyOf m) ∧
    (∀ a b : Byte, gfMult a b m = gfMult b a m) ∧
    (∀ a b c : Byte, gfMult (gfMult a b m) c m = gfMult a (gfMult b c m) m) ∧
    (∀ a : Byte, gfMult a 1 m = a ∧ gfMult a 0 m = 0)

/-- gf_exp7 is the seventh power modulo m, and gf_exp7(1, m) = 1 (R124). -/
def Obligations.GfExp7IsSeventhPower : Prop :=
  ∀ (m : Modulus) (b : Byte), m.getLsbD 8 = true →
    polyOf (gfExp7 b m) = polyOf b ^ 7 %ₘ polyOf m ∧ gfExp7 1 m = 1

/-- perm32 moves bit s to bit d(s) of R142's bit map, so it is linear over XOR and fixes 0 and all ones (R151). The map's values
are the spec's from general knowledge (log entry 2). -/
def Obligations.Perm32MovesBits : Prop :=
  (∀ (x : Word) (n : Nat), n < 32 → (perm32 x).getLsbD (pboxDest.getD n 0) = x.getLsbD n) ∧
  (∀ x : Word, perm32 x = (List.range 32).foldl
    (fun r n => if x.getLsbD n then r ||| Config.pbox.toList.getD n 0 else r) 0) ∧
  perm32 0 = 0 ∧ perm32 0xFFFF_FFFF = 0xFFFF_FFFF ∧
  ∀ x y : Word, perm32 (x ^^^ y) = perm32 x ^^^ perm32 y

/-- Every S-box entry lies within its S-box's output bit set, the four sets are disjoint and cover the word (R143, R154), and so
f's OR is an XOR once the S-boxes are built (R205). The tables' values are the spec's from general knowledge (log entry 2). -/
def Obligations.SboxOutputsAreDisjoint : Prop :=
  (∀ (k : Fin 4) (i : SboxIndex), sboxEntry k i &&& ~~~ sboxBits k = 0) ∧
  (∀ k l : Fin 4, k ≠ l → sboxBits k &&& sboxBits l = 0) ∧
  sboxBits 0 ||| sboxBits 1 ||| sboxBits 2 ||| sboxBits 3 = 0xFFFF_FFFF ∧
  (∀ (s : State) (p : Word) (sk : SubKey), s.Inv → s.ready = true →
    roundF s.sboxAt p sk =
      s.sboxAt 0 ((roundLeft p sk).extractLsb' 10 10) ^^^ s.sboxAt 1 ((roundLeft p sk).extractLsb' 0 10) ^^^
      s.sboxAt 2 ((roundRight p sk).extractLsb' 10 10) ^^^ s.sboxAt 3 ((roundRight p sk).extractLsb' 0 10))

/-- Within one S-box and one row, no two of the 256 entries are equal (R154), for the tables' values that the spec takes from
general knowledge (log entry 2). -/
def Obligations.SboxRowsAreInjective : Prop :=
  ∀ (k : Fin 4) (i j : SboxIndex), i.getLsbD 9 = j.getLsbD 9 → i.getLsbD 0 = j.getLsbD 0 →
    sboxEntry k i = sboxEntry k j → i = j

/-- R200, R201, R203, R204, bit by bit: tl and tr take the bits of p that the expansions say, a salt bit swaps them, and the
subkeys are XORed in. The two expansion formulas are the spec's from general knowledge (log entry 3). -/
def Obligations.RoundInputsBitByBit : Prop :=
  ∀ (p : Word) (sk : SubKey) (n : Nat), n < 20 →
    let tl := if n < 10 then p.getLsbD (16 + n) else if n < 18 then p.getLsbD (14 + n) else p.getLsbD (n - 18)
    let tr := if n < 10 then p.getLsbD n else p.getLsbD (n - 2)
    (expandLeft p).getLsbD n = tl ∧ (expandRight p).getLsbD n = tr ∧
    (roundLeft p sk).getLsbD n = ((if sk.sk2.getLsbD n then tr else tl) ^^ sk.sk0.getLsbD n) ∧
    (roundRight p sk).getLsbD n = ((if sk.sk2.getLsbD n then tl else tr) ^^ sk.sk1.getLsbD n)

/-- The key words of a block (R171); the bits of one schedule entry (R173, R174, R175): bit n of sk[c] is bit 3*((19-n)/4)+c
of key word (kr + (19-n)) mod 4, and each key word leaves the entry rotated with its first fifteen bits complemented; an
expansion carries the buffer from one entry to the next (R174); and the two halves of ICE_KEYROT (R170), whose values are the
spec's from general knowledge (log entry 2). -/
def Obligations.ScheduleEntryBits : Prop :=
  ∀ (kb : KeyBuf) (kr : Fin 4),
    (∀ c n, c < 3 → n < 20 →
      ((expandEntry kb kr).2.get c).getLsbD n =
        (kb[Fin.ofNat 4 (kr.val + (19 - n))]).getLsbD (3 * ((19 - n) / 4) + c)) ∧
    (∀ (w : Fin 4) (n : Nat), n < 16 →
      ((expandEntry kb kr).1[w]).getLsbD n = if n = 0 then kb[w].getLsbD 15 else !(kb[w].getLsbD (n - 1))) ∧
    (∀ (key : Nat → Byte) (o : Nat) (j : Fin 4),
      (keyWords key o)[j] = key (o + (3 - j.val) * 2) ++ key (o + (3 - j.val) * 2 + 1)) ∧
    (∀ rot : List (Fin 4),
      (expand8 kb rot).1 = rot.foldl (fun b x => (expandEntry b x).1) kb ∧
      (expand8 kb rot).2.length = rot.length ∧
      ∀ e, (expand8 kb rot).2[e]? =
        rot[e]?.map fun x => (expandEntry ((rot.take e).foldl (fun b y => (expandEntry b y).1) kb) x).2) ∧
    keyrotForward = [0, 1, 2, 3, 2, 1, 3, 0] ∧ keyrotMirrored = [1, 3, 2, 0, 3, 1, 0, 2]

/-- Every entry of the general schedule (R177, R178): entry 8i+e is entry e of block i's forward expansion, and entry
16N-8-8i+e entry e of its mirrored expansion from the mutated buffer; the thin schedule is the forward expansion of block 0
(R176). -/
def Obligations.ScheduleEntriesCovered : Prop :=
  ∀ key : Nat → Byte,
    keySchedule key 1 8 = (expand8 (keyWords key 0) keyrotForward).2 ∧
    ∀ N, 1 ≤ N →
      (keySchedule key N (16 * N)).length = 16 * N ∧
      ∀ i e, i < N → e < 8 →
        (keySchedule key N (16 * N))[8 * i + e]? = (expand8 (keyWords key (8 * i)) keyrotForward).2[e]? ∧
        (keySchedule key N (16 * N))[16 * N - 8 - 8 * i + e]? =
          (expand8 (expand8 (keyWords key (8 * i)) keyrotForward).1 keyrotMirrored).2[e]?

/-- R179: the thin schedule of a key is the first 8 entries of its level-1 schedule. -/
def Obligations.ThinScheduleIsPrefix : Prop :=
  ∀ key : Nat → Byte, keySchedule key 1 8 = (keySchedule key 1 16).take 8

/-- The half-rounds of a block (R220, R221): encryption uses the entries 0, 1, 2, ... in pairs, decryption ROUNDS-1, ROUNDS-2,
... in pairs, the second half-round of a pair uses the left word just computed, and the output is right, then left. -/
def Obligations.BlockFollowsRounds : Prop :=
  ∀ (f : Word → SubKey → Word) (sched : Nat → SubKey) (rounds : Nat) (b : Word × Word), rounds % 2 = 0 →
    (∃ L R : Nat → Word, L 0 = b.1 ∧ R 0 = b.2 ∧
      (∀ j, 2 * j + 1 < rounds →
        L (j + 1) = L j ^^^ f (R j) (sched (2 * j)) ∧ R (j + 1) = R j ^^^ f (L (j + 1)) (sched (2 * j + 1))) ∧
      encryptBlock f sched rounds b = (R (rounds / 2), L (rounds / 2))) ∧
    (∃ L R : Nat → Word, L 0 = b.1 ∧ R 0 = b.2 ∧
      (∀ j, 2 * j + 1 < rounds →
        L (j + 1) = L j ^^^ f (R j) (sched (rounds - 1 - 2 * j)) ∧
        R (j + 1) = R j ^^^ f (L (j + 1)) (sched (rounds - 2 - 2 * j))) ∧
      decryptBlock f sched rounds b = (R (rounds / 2), L (rounds / 2)))

/-- R222: for every loaded schedule, DECRYPT undoes ENCRYPT and ENCRYPT undoes DECRYPT, block by block and on all of BUF. -/
def Obligations.DecryptUndoesEncrypt : Prop :=
  (∀ (f : Word → SubKey → Word) (sched : Nat → SubKey) (rounds : Nat) (b : Word × Word), rounds % 2 = 0 →
    decryptBlock f sched rounds (encryptBlock f sched rounds b) = b ∧
    encryptBlock f sched rounds (decryptBlock f sched rounds b) = b) ∧
  (∀ s : State, s.Inv → s.keyvalid = true → s.len.toNat ≠ 0 → s.len.toNat % 8 = 0 → s.len.toNat ≤ s.params.bufBytes →
    (∃ t u : State, exec .encrypt s = .next t ∧ exec .decrypt t = .next u ∧ ∀ a, u.bufByte a = s.bufByte a) ∧
    (∃ t u : State, exec .decrypt s = .next t ∧ exec .encrypt t = .next u ∧ ∀ a, u.bufByte a = s.bufByte a))

/-- What ENCRYPT and DECRYPT leave in BUF[0 .. LEN-1] depends on SCHED[0 .. ROUNDS-1], ROUNDS, LEN, SBOX and those bytes only
(R224). -/
def Obligations.CipherDependsOnItsInputs : Prop :=
  ∀ (s s' t t' : State) (i : Instr), i ∈ [Instr.encrypt, .decrypt] →
    s.len = s'.len → s.rounds = s'.rounds → (∀ r, r < s.rounds.toNat → s.schedAt r = s'.schedAt r) →
    (∀ k j, s.sboxAt k j = s'.sboxAt k j) → (∀ a, a < s.len.toNat → s.bufByte a = s'.bufByte a) →
    exec i s = .next t → exec i s' = .next t' → t.errcode = .ok → t'.errcode = .ok →
    ∀ a, a < s.len.toNat → t.bufByte a = t'.bufByte a

/-! The host port. -/

/-- R63, R64, R65: an access of another width, a misaligned access, and an access at a reserved offset has no effect but BUSERR,
and a read returns 0. -/
def Obligations.UnsupportedAccessSetsBuserr : Prop :=
  ∀ (s : State) (off : Offset) (size : Nat),
    (size ≠ 4 ∨ off.extractLsb' 0 2 ≠ 0 ∨ reservedOffset s.params off.toNat) →
    s.hostRead off size = (0, { s with buserr := true }) ∧ ∀ v, s.hostWrite off size v = { s with buserr := true }

/-- R66: a write to ID, PARAM, SIZE, ROUNDS or RESULT changes nothing and sets BUSERR; CMD and the KEY window read 0 and do not;
reserved bits of STATUS and IRQEN ignore writes and read 0. -/
def Obligations.ReadOnlyAndWriteOnlyLocations : Prop :=
  ∀ (s : State) (v v' : Word),
    (∀ off ∈ [(0x000 : Offset), 0x004, 0x020, 0x024, 0x028], s.hostWrite off 4 v = { s with buserr := true }) ∧
    s.hostRead 0x008 4 = (0, s) ∧
    (∀ w, w < 2 * s.params.nmax → s.hostRead (BitVec.ofNat 13 (0x400 + 4 * w)) 4 = (0, s)) ∧
    s.statusWord.getLsbD 7 = false ∧ s.statusWord.extractLsb' 16 16 = 0 ∧ s.irqenWord.extractLsb' 1 31 = 0 ∧
    (v.getLsbD 1 = v'.getLsbD 1 → v.getLsbD 5 = v'.getLsbD 5 → v.getLsbD 6 = v'.getLsbD 6 →
      s.hostWrite 0x00C 4 v = s.hostWrite 0x00C 4 v') ∧
    (v.getLsbD 0 = v'.getLsbD 0 → s.hostWrite 0x010 4 v = s.hostWrite 0x010 4 v')

/-- R300: while BUSY is 1, a write to CMD, an operand register or a window word is dropped and sets OVR; writes to STATUS and
IRQEN are performed, and a write to a read-only register sets BUSERR. -/
def Obligations.WritesWhileBusyAreDropped : Prop :=
  ∀ (s : State) (v : Word), s.busy = true →
    (∀ off ∈ [(0x008 : Offset), 0x014, 0x018, 0x01C, 0x030, 0x034, 0x038, 0x03C],
      s.hostWrite off 4 v = { s with ovr := true }) ∧
    (∀ w, w < 2 * s.params.nmax → s.hostWrite (BitVec.ofNat 13 (0x400 + 4 * w)) 4 v = { s with ovr := true }) ∧
    (∀ w, w < s.params.bufBytes / 4 → s.hostWrite (BitVec.ofNat 13 (0x1000 + 4 * w)) 4 v = { s with ovr := true }) ∧
    s.hostWrite 0x00C 4 v =
      { s with done := s.done && !v.getLsbD 1, ovr := s.ovr && !v.getLsbD 5, buserr := s.buserr && !v.getLsbD 6 } ∧
    s.hostWrite 0x010 4 v = { s with irqen := v.getLsbD 0 } ∧
    (∀ off ∈ [(0x000 : Offset), 0x004, 0x020, 0x024, 0x028], s.hostWrite off 4 v = { s with buserr := true })

/-- Reads while BUSY is 1 (R301): SIZE, ROUNDS, RESULT and BUF read as a draw, whatever its value, and every other location as
its exact value. That a draw is named by a count of draws is the model's (log entry 9). -/
def Obligations.ReadsWhileBusy : Prop :=
  ∀ s : State, s.busy = true →
    (∀ off ∈ [(0x020 : Offset), 0x024, 0x028],
      s.hostRead off 4 = (Config.readDraw s.draws, { s with draws := s.draws + 1 })) ∧
    (∀ w, w < s.params.bufBytes / 4 →
      s.hostRead (BitVec.ofNat 13 (0x1000 + 4 * w)) 4 = (Config.readDraw s.draws, { s with draws := s.draws + 1 })) ∧
    s.hostRead 0x000 4 = (0x4943_4501, s) ∧ s.hostRead 0x004 4 = (s.paramWord, s) ∧ s.hostRead 0x008 4 = (0, s) ∧
    s.hostRead 0x00C 4 = (s.statusWord, s) ∧ s.hostRead 0x010 4 = (s.irqenWord, s) ∧ s.hostRead 0x014 4 = (s.level, s) ∧
    s.hostRead 0x018 4 = (s.keylen, s) ∧ s.hostRead 0x01C 4 = (s.len, s) ∧ s.hostRead 0x030 4 = (s.opa, s) ∧
    s.hostRead 0x034 4 = (s.opb, s) ∧ s.hostRead 0x038 4 = (s.opc, s) ∧ s.hostRead 0x03C 4 = (s.opd, s) ∧
    (∀ w, w < 2 * s.params.nmax → s.hostRead (BitVec.ofNat 13 (0x400 + 4 * w)) 4 = (0, s))

/-- The fields of STATUS where it is read, with the numbers of the error codes (R23, R250), and what a write to it does, busy
or not. -/
def Obligations.StatusFieldsAndWrites : Prop :=
  (∀ s : State,
    s.hostRead 0x00C 4 = (s.statusWord, s) ∧
    (s.statusWord.getLsbD 0 = true ↔ s.pending ≠ .idle) ∧ s.statusWord.getLsbD 1 = s.done ∧
    s.statusWord.getLsbD 2 = s.err ∧ s.statusWord.getLsbD 3 = s.keyvalid ∧ s.statusWord.getLsbD 4 = s.ready ∧
    s.statusWord.getLsbD 5 = s.ovr ∧ s.statusWord.getLsbD 6 = s.buserr ∧ s.statusWord.getLsbD 7 = false ∧
    s.statusWord.extractLsb' 8 4 = s.errcode.code ∧ s.statusWord.extractLsb' 12 4 = s.lastop ∧
    s.statusWord.extractLsb' 16 16 = 0) ∧
  (∀ (s : State) (v : Word), s.hostWrite 0x00C 4 v =
    { s with
      done := if v.getLsbD 1 then false else s.done,
      ovr := if v.getLsbD 5 then false else s.ovr,
      buserr := if v.getLsbD 6 then false else s.buserr }) ∧
  State.reset.statusWord = 0x0000_0001 ∧
  (ErrCode.ok.code = 0 ∧ ErrCode.illegalCmd.code = 1 ∧ ErrCode.levelRange.code = 2 ∧ ErrCode.badKeylen.code = 3 ∧
    ErrCode.noKey.code = 4 ∧ ErrCode.badLen.code = 5 ∧ ErrCode.badOperand.code = 6)

/-- The registers while idle (R21, R24 to R32, R42): a write stores the value and nothing else, a read returns what is stored
and changes nothing (R69), IRQEN keeps bit 0 only, and ID and PARAM read their constants. -/
def Obligations.RegistersReadBack : Prop :=
  ∀ (s : State) (v : Word), s.busy = false →
    s.hostWrite 0x014 4 v = { s with level := v } ∧ s.hostWrite 0x018 4 v = { s with keylen := v } ∧
    s.hostWrite 0x01C 4 v = { s with len := v } ∧ s.hostWrite 0x030 4 v = { s with opa := v } ∧
    s.hostWrite 0x034 4 v = { s with opb := v } ∧ s.hostWrite 0x038 4 v = { s with opc := v } ∧
    s.hostWrite 0x03C 4 v = { s with opd := v } ∧ s.hostWrite 0x010 4 v = { s with irqen := v.getLsbD 0 } ∧
    (∀ off ∈ [(0x014 : Offset), 0x018, 0x01C, 0x030, 0x034, 0x038, 0x03C],
      (State.hostRead (s.hostWrite off 4 v) off 4).1 = v) ∧
    (State.hostRead (s.hostWrite 0x010 4 v) 0x010 4).1 = v &&& 1 ∧
    s.hostRead 0x000 4 = (0x4943_4501, s) ∧ s.hostRead 0x004 4 = (s.paramWord, s) ∧
    s.paramWord.toNat = 65536 * s.params.bufBytes + s.params.nmax ∧
    s.hostRead 0x010 4 = (s.irqenWord, s) ∧ s.irqenWord = (if s.irqen then 1 else 0) ∧
    s.hostRead 0x014 4 = (s.level, s) ∧ s.hostRead 0x018 4 = (s.keylen, s) ∧ s.hostRead 0x01C 4 = (s.len, s) ∧
    s.hostRead 0x030 4 = (s.opa, s) ∧ s.hostRead 0x034 4 = (s.opb, s) ∧ s.hostRead 0x038 4 = (s.opc, s) ∧
    s.hostRead 0x03C 4 = (s.opd, s) ∧
    s.hostRead 0x020 4 = (s.size, s) ∧ s.hostRead 0x024 4 = (s.rounds, s) ∧ s.hostRead 0x028 4 = (s.result, s)

/-- R62: while idle, a write to a window word stores its four bytes, the most significant at the lowest offset, and changes no
other byte and no other state; a BUF word reads back big-endian, and a KEY word reads 0. -/
def Obligations.WindowWordsAreBigEndian : Prop :=
  ∀ (s : State) (v : Word), s.busy = false → keyWf s.params s.key = true →
    (∀ w, w < 2 * s.params.nmax → ∃ K : List Host.Cell,
      s.hostWrite (BitVec.ofNat 13 (0x400 + 4 * w)) 4 v = { s with key := K } ∧
      State.keyByte { s with key := K } (4 * w) = v.extractLsb' 24 8 ∧
      State.keyByte { s with key := K } (4 * w + 1) = v.extractLsb' 16 8 ∧
      State.keyByte { s with key := K } (4 * w + 2) = v.extractLsb' 8 8 ∧
      State.keyByte { s with key := K } (4 * w + 3) = v.extractLsb' 0 8 ∧
      (∀ a, (a < 4 * w ∨ 4 * w + 4 ≤ a) → State.keyByte { s with key := K } a = s.keyByte a) ∧
      (s.hostRead (BitVec.ofNat 13 (0x400 + 4 * w)) 4) = (0, s)) ∧
    (∀ w, w < s.params.bufBytes / 4 → ∃ B : List Host.Cell,
      s.hostWrite (BitVec.ofNat 13 (0x1000 + 4 * w)) 4 v = { s with buf := B } ∧
      State.bufByte { s with buf := B } (4 * w) = v.extractLsb' 24 8 ∧
      State.bufByte { s with buf := B } (4 * w + 1) = v.extractLsb' 16 8 ∧
      State.bufByte { s with buf := B } (4 * w + 2) = v.extractLsb' 8 8 ∧
      State.bufByte { s with buf := B } (4 * w + 3) = v.extractLsb' 0 8 ∧
      (∀ a, (a < 4 * w ∨ 4 * w + 4 ≤ a) → State.bufByte { s with buf := B } a = s.bufByte a) ∧
      (s.hostRead (BitVec.ofNat 13 (0x1000 + 4 * w)) 4) =
        (s.bufByte (4 * w) ++ s.bufByte (4 * w + 1) ++ s.bufByte (4 * w + 2) ++ s.bufByte (4 * w + 3), s))

/-- The latch PENDING (R39, R22, R290): BUSY is 1 exactly when PENDING is not NONE; a write to CMD while PENDING is NONE accepts
the word; the engine's step ends with PENDING = NONE; reset makes INIT pending. R39 gives the engine a step only when PENDING is
not NONE: that its turn with PENDING = NONE answers the same state is log entry 11. -/
def Obligations.CommandAcceptance : Prop :=
  (∀ s : State, s.busy = true ↔ s.pending ≠ .idle) ∧
  (∀ (s : State) (w : Word), s.pending = .idle → s.hostWrite 0x008 4 w =
    { s with pending := .cmd w, done := false, err := false, errcode := .ok, lastop := w.extractLsb' 0 4 }) ∧
  (∀ s t : State, (nextTurn s).1 = .engine → step s = .next t →
    t.pending = .idle ∧ (s.pending = .idle → t = s.taken)) ∧
  (∀ s : State, s.resetInput.pending = .init)

/-- No offset but its own reaches a location (R42, R71): a supported access is 4 bytes at that location's offset, within the
windows. -/
def Obligations.NoLocationIsAliased : Prop :=
  ∀ (p : Params) (off : Offset) (size : Nat) (l : Loc), accessLoc p off size = some l →
    size = 4 ∧ off = l.offset ∧ (∀ w, l = .keyWord w → w < 2 * p.nmax) ∧ (∀ w, l = .bufWord w → w < p.bufBytes / 4)

/-- R260: irq is DONE and IRQEN[0]; masking does not clear DONE and unmasking asserts irq again; clearing DONE deasserts it. -/
def Obligations.IrqFollowsDoneAndEnable : Prop :=
  (∀ s : State, s.irq = (s.statusWord.getLsbD 1 && s.irqenWord.getLsbD 0) ∧
    (s.hostWrite 0x010 4 0).irq = false ∧ (s.hostWrite 0x010 4 0).done = s.done ∧
    (State.hostWrite (s.hostWrite 0x010 4 0) 0x010 4 1).irq = s.done ∧ (s.hostWrite 0x00C 4 0x2).irq = false) ∧
  State.reset.irq = false

/-! Whole-machine rules. -/

/-- The flags change by the events of R43's table and by no other (R37, R38, R43, R255): what the host's access, the engine's
step and the reset input make of each. -/
def Obligations.FlagsChangeOnlyByTheirEvents : Prop :=
  ∀ s t : State, step s = .next t →
    ((nextTurn s).1 = .host →
      t.ready = s.ready ∧ t.keyvalid = s.keyvalid ∧
      (t.busy = true ↔ s.busy = true ∨ ∃ w, s.accepts w) ∧
      (t.done = true ↔ s.done = true ∧ ¬ s.clearsBit 1 ∧ ¬ ∃ w, s.accepts w) ∧
      (t.ovr = true ↔ (s.ovr = true ∧ ¬ s.clearsBit 5) ∨ (s.busy = true ∧ ∃ l v, l.droppedWhileBusy ∧ s.writesTo l v)) ∧
      (t.buserr = true ↔ (s.buserr = true ∧ ¬ s.clearsBit 6) ∨ s.unsupported) ∧
      (∀ w, s.accepts w → t.err = false ∧ t.errcode = .ok ∧ t.lastop = w.extractLsb' 0 4) ∧
      ((¬ ∃ w, s.accepts w) → t.err = s.err ∧ t.errcode = s.errcode ∧ t.lastop = s.lastop)) ∧
    ((nextTurn s).1 = .engine →
      t.busy = false ∧ t.ovr = s.ovr ∧ t.buserr = s.buserr ∧ t.lastop = s.lastop ∧ t.irqen = s.irqen ∧
      (s.pending = .init →
        t.ready = true ∧ t.keyvalid = s.keyvalid ∧ t.done = s.done ∧ t.err = s.err ∧ t.errcode = s.errcode) ∧
      (∀ w, s.pending = .cmd w →
        t.ready = s.ready ∧ t.done = true ∧ (t.err = true ↔ t.errcode ≠ .ok) ∧
        (t.keyvalid ≠ s.keyvalid →
          (decode w = some .keyset ∧ t.keyvalid = true ∧ t.errcode = .ok) ∨
          (decode w = some .zeroize ∧ t.keyvalid = false)))) ∧
    ((nextTurn s).1 = .reset →
      t.busy = true ∧ t.done = false ∧ t.err = false ∧ t.errcode = .ok ∧ t.keyvalid = false ∧ t.ready = false ∧
      t.ovr = false ∧ t.buserr = false ∧ t.lastop = 0)

/-- From acceptance to completion a host transaction changes nothing a command reads (R74, R300): only DONE, OVR, BUSERR and
IRQEN, and what is the host's own. -/
def Obligations.OperandsAreStableWhileBusy : Prop :=
  ∀ s t : State, s.busy = true → (nextTurn s).1 = .host → step s = .next t →
    t = { s with
          done := t.done, ovr := t.ovr, buserr := t.buserr, irqen := t.irqen,
          draws := t.draws, program := t.program, observed := t.observed, turns := t.turns }

/-- SBOX is written by INIT and by nothing else short of reset (R35, R79). -/
def Obligations.SboxIsWrittenByInitOnly : Prop :=
  ∀ s t : State, step s = .next t → (nextTurn s).1 ≠ .reset → s.pending ≠ .init →
    t.sbox = s.sbox ∧ ∀ k i, t.sboxAt k i = s.sboxAt k i

/-- Key confidentiality (R263, R33, R36): two states that differ only in KEY and SCHED take steps that again differ only there,
unless the step is the engine's ENCRYPT or DECRYPT. So no host access and no other command shows the host anything of them. -/
def Obligations.KeysAreNotObservable : Prop :=
  ∀ s s' t : State, s.publicView = s'.publicView → step s = .next t →
    ((nextTurn s).1 = .engine → ∀ w, s.pending = .cmd w → decode w ≠ some .encrypt ∧ decode w ≠ some .decrypt) →
    ∃ t', step s' = .next t' ∧ t.publicView = t'.publicView

/-- `wait` ends (R97): a host left alone with it finds BUSY = 0 within two steps. That the engine moves first when nobody's turn
is said stands for the fairness of R308 (log entries 4 and 16). -/
def Obligations.WaitEndsWithinTwoSteps : Prop :=
  ∀ (s : State) (rest : List HostOp), s.turns = [] → s.program = .wait :: rest →
    ∃ (n : Nat) (t : State), n ≤ 2 ∧ Sys2Proof.core.run n s = .next t ∧ t.program = rest ∧ t.busy = false
end

