-- ==== Sys2Proof/Laws/State.lean ====
section
/-! SUPPORT. What each update of the state does to each field, so that no proof unfolds a record update. -/

namespace Sys2Proof.Machine

/-! setResult -/

@[simp] theorem State.setResult_params (s : State) (v : Word) : (s.setResult v).params = s.params := rfl
@[simp] theorem State.setResult_pending (s : State) (v : Word) : (s.setResult v).pending = s.pending := rfl
@[simp] theorem State.setResult_done (s : State) (v : Word) : (s.setResult v).done = s.done := rfl
@[simp] theorem State.setResult_err (s : State) (v : Word) : (s.setResult v).err = s.err := rfl
@[simp] theorem State.setResult_errcode (s : State) (v : Word) : (s.setResult v).errcode = s.errcode := rfl
@[simp] theorem State.setResult_keyvalid (s : State) (v : Word) : (s.setResult v).keyvalid = s.keyvalid := rfl
@[simp] theorem State.setResult_ready (s : State) (v : Word) : (s.setResult v).ready = s.ready := rfl
@[simp] theorem State.setResult_ovr (s : State) (v : Word) : (s.setResult v).ovr = s.ovr := rfl
@[simp] theorem State.setResult_buserr (s : State) (v : Word) : (s.setResult v).buserr = s.buserr := rfl
@[simp] theorem State.setResult_lastop (s : State) (v : Word) : (s.setResult v).lastop = s.lastop := rfl
@[simp] theorem State.setResult_irqen (s : State) (v : Word) : (s.setResult v).irqen = s.irqen := rfl
@[simp] theorem State.setResult_level (s : State) (v : Word) : (s.setResult v).level = s.level := rfl
@[simp] theorem State.setResult_keylen (s : State) (v : Word) : (s.setResult v).keylen = s.keylen := rfl
@[simp] theorem State.setResult_len (s : State) (v : Word) : (s.setResult v).len = s.len := rfl
@[simp] theorem State.setResult_size (s : State) (v : Word) : (s.setResult v).size = s.size := rfl
@[simp] theorem State.setResult_rounds (s : State) (v : Word) : (s.setResult v).rounds = s.rounds := rfl
@[simp] theorem State.setResult_result (s : State) (v : Word) : (s.setResult v).result = v := rfl
@[simp] theorem State.setResult_opa (s : State) (v : Word) : (s.setResult v).opa = s.opa := rfl
@[simp] theorem State.setResult_opb (s : State) (v : Word) : (s.setResult v).opb = s.opb := rfl
@[simp] theorem State.setResult_opc (s : State) (v : Word) : (s.setResult v).opc = s.opc := rfl
@[simp] theorem State.setResult_opd (s : State) (v : Word) : (s.setResult v).opd = s.opd := rfl
@[simp] theorem State.setResult_key (s : State) (v : Word) : (s.setResult v).key = s.key := rfl
@[simp] theorem State.setResult_buf (s : State) (v : Word) : (s.setResult v).buf = s.buf := rfl
@[simp] theorem State.setResult_sbox (s : State) (v : Word) : (s.setResult v).sbox = s.sbox := rfl
@[simp] theorem State.setResult_sched (s : State) (v : Word) : (s.setResult v).sched = s.sched := rfl
@[simp] theorem State.setResult_epoch (s : State) (v : Word) : (s.setResult v).epoch = s.epoch := rfl
@[simp] theorem State.setResult_draws (s : State) (v : Word) : (s.setResult v).draws = s.draws := rfl
@[simp] theorem State.setResult_program (s : State) (v : Word) : (s.setResult v).program = s.program := rfl
@[simp] theorem State.setResult_observed (s : State) (v : Word) : (s.setResult v).observed = s.observed := rfl
@[simp] theorem State.setResult_turns (s : State) (v : Word) : (s.setResult v).turns = s.turns := rfl

/-! observe -/

@[simp] theorem State.observe_params (s : State) (v : Word) : (s.observe v).params = s.params := rfl
@[simp] theorem State.observe_pending (s : State) (v : Word) : (s.observe v).pending = s.pending := rfl
@[simp] theorem State.observe_done (s : State) (v : Word) : (s.observe v).done = s.done := rfl
@[simp] theorem State.observe_err (s : State) (v : Word) : (s.observe v).err = s.err := rfl
@[simp] theorem State.observe_errcode (s : State) (v : Word) : (s.observe v).errcode = s.errcode := rfl
@[simp] theorem State.observe_keyvalid (s : State) (v : Word) : (s.observe v).keyvalid = s.keyvalid := rfl
@[simp] theorem State.observe_ready (s : State) (v : Word) : (s.observe v).ready = s.ready := rfl
@[simp] theorem State.observe_ovr (s : State) (v : Word) : (s.observe v).ovr = s.ovr := rfl
@[simp] theorem State.observe_buserr (s : State) (v : Word) : (s.observe v).buserr = s.buserr := rfl
@[simp] theorem State.observe_lastop (s : State) (v : Word) : (s.observe v).lastop = s.lastop := rfl
@[simp] theorem State.observe_irqen (s : State) (v : Word) : (s.observe v).irqen = s.irqen := rfl
@[simp] theorem State.observe_level (s : State) (v : Word) : (s.observe v).level = s.level := rfl
@[simp] theorem State.observe_keylen (s : State) (v : Word) : (s.observe v).keylen = s.keylen := rfl
@[simp] theorem State.observe_len (s : State) (v : Word) : (s.observe v).len = s.len := rfl
@[simp] theorem State.observe_size (s : State) (v : Word) : (s.observe v).size = s.size := rfl
@[simp] theorem State.observe_rounds (s : State) (v : Word) : (s.observe v).rounds = s.rounds := rfl
@[simp] theorem State.observe_result (s : State) (v : Word) : (s.observe v).result = s.result := rfl
@[simp] theorem State.observe_opa (s : State) (v : Word) : (s.observe v).opa = s.opa := rfl
@[simp] theorem State.observe_opb (s : State) (v : Word) : (s.observe v).opb = s.opb := rfl
@[simp] theorem State.observe_opc (s : State) (v : Word) : (s.observe v).opc = s.opc := rfl
@[simp] theorem State.observe_opd (s : State) (v : Word) : (s.observe v).opd = s.opd := rfl
@[simp] theorem State.observe_key (s : State) (v : Word) : (s.observe v).key = s.key := rfl
@[simp] theorem State.observe_buf (s : State) (v : Word) : (s.observe v).buf = s.buf := rfl
@[simp] theorem State.observe_sbox (s : State) (v : Word) : (s.observe v).sbox = s.sbox := rfl
@[simp] theorem State.observe_sched (s : State) (v : Word) : (s.observe v).sched = s.sched := rfl
@[simp] theorem State.observe_epoch (s : State) (v : Word) : (s.observe v).epoch = s.epoch := rfl
@[simp] theorem State.observe_draws (s : State) (v : Word) : (s.observe v).draws = s.draws := rfl
@[simp] theorem State.observe_program (s : State) (v : Word) : (s.observe v).program = s.program := rfl
@[simp] theorem State.observe_observed (s : State) (v : Word) : (s.observe v).observed = s.observed ++ [v] := rfl
@[simp] theorem State.observe_turns (s : State) (v : Word) : (s.observe v).turns = s.turns := rfl

/-! draw -/

@[simp] theorem State.draw_params (s : State) : (s.draw.2).params = s.params := rfl
@[simp] theorem State.draw_pending (s : State) : (s.draw.2).pending = s.pending := rfl
@[simp] theorem State.draw_done (s : State) : (s.draw.2).done = s.done := rfl
@[simp] theorem State.draw_err (s : State) : (s.draw.2).err = s.err := rfl
@[simp] theorem State.draw_errcode (s : State) : (s.draw.2).errcode = s.errcode := rfl
@[simp] theorem State.draw_keyvalid (s : State) : (s.draw.2).keyvalid = s.keyvalid := rfl
@[simp] theorem State.draw_ready (s : State) : (s.draw.2).ready = s.ready := rfl
@[simp] theorem State.draw_ovr (s : State) : (s.draw.2).ovr = s.ovr := rfl
@[simp] theorem State.draw_buserr (s : State) : (s.draw.2).buserr = s.buserr := rfl
@[simp] theorem State.draw_lastop (s : State) : (s.draw.2).lastop = s.lastop := rfl
@[simp] theorem State.draw_irqen (s : State) : (s.draw.2).irqen = s.irqen := rfl
@[simp] theorem State.draw_level (s : State) : (s.draw.2).level = s.level := rfl
@[simp] theorem State.draw_keylen (s : State) : (s.draw.2).keylen = s.keylen := rfl
@[simp] theorem State.draw_len (s : State) : (s.draw.2).len = s.len := rfl
@[simp] theorem State.draw_size (s : State) : (s.draw.2).size = s.size := rfl
@[simp] theorem State.draw_rounds (s : State) : (s.draw.2).rounds = s.rounds := rfl
@[simp] theorem State.draw_result (s : State) : (s.draw.2).result = s.result := rfl
@[simp] theorem State.draw_opa (s : State) : (s.draw.2).opa = s.opa := rfl
@[simp] theorem State.draw_opb (s : State) : (s.draw.2).opb = s.opb := rfl
@[simp] theorem State.draw_opc (s : State) : (s.draw.2).opc = s.opc := rfl
@[simp] theorem State.draw_opd (s : State) : (s.draw.2).opd = s.opd := rfl
@[simp] theorem State.draw_key (s : State) : (s.draw.2).key = s.key := rfl
@[simp] theorem State.draw_buf (s : State) : (s.draw.2).buf = s.buf := rfl
@[simp] theorem State.draw_sbox (s : State) : (s.draw.2).sbox = s.sbox := rfl
@[simp] theorem State.draw_sched (s : State) : (s.draw.2).sched = s.sched := rfl
@[simp] theorem State.draw_epoch (s : State) : (s.draw.2).epoch = s.epoch := rfl
@[simp] theorem State.draw_draws (s : State) : (s.draw.2).draws = s.draws + 1 := rfl
@[simp] theorem State.draw_program (s : State) : (s.draw.2).program = s.program := rfl
@[simp] theorem State.draw_observed (s : State) : (s.draw.2).observed = s.observed := rfl
@[simp] theorem State.draw_turns (s : State) : (s.draw.2).turns = s.turns := rfl

/-! accept -/

@[simp] theorem State.accept_params (s : State) (w : Word) : (s.accept w).params = s.params := rfl
@[simp] theorem State.accept_pending (s : State) (w : Word) : (s.accept w).pending = .cmd w := rfl
@[simp] theorem State.accept_done (s : State) (w : Word) : (s.accept w).done = false := rfl
@[simp] theorem State.accept_err (s : State) (w : Word) : (s.accept w).err = false := rfl
@[simp] theorem State.accept_errcode (s : State) (w : Word) : (s.accept w).errcode = .ok := rfl
@[simp] theorem State.accept_keyvalid (s : State) (w : Word) : (s.accept w).keyvalid = s.keyvalid := rfl
@[simp] theorem State.accept_ready (s : State) (w : Word) : (s.accept w).ready = s.ready := rfl
@[simp] theorem State.accept_ovr (s : State) (w : Word) : (s.accept w).ovr = s.ovr := rfl
@[simp] theorem State.accept_buserr (s : State) (w : Word) : (s.accept w).buserr = s.buserr := rfl
@[simp] theorem State.accept_lastop (s : State) (w : Word) : (s.accept w).lastop = opField w := rfl
@[simp] theorem State.accept_irqen (s : State) (w : Word) : (s.accept w).irqen = s.irqen := rfl
@[simp] theorem State.accept_level (s : State) (w : Word) : (s.accept w).level = s.level := rfl
@[simp] theorem State.accept_keylen (s : State) (w : Word) : (s.accept w).keylen = s.keylen := rfl
@[simp] theorem State.accept_len (s : State) (w : Word) : (s.accept w).len = s.len := rfl
@[simp] theorem State.accept_size (s : State) (w : Word) : (s.accept w).size = s.size := rfl
@[simp] theorem State.accept_rounds (s : State) (w : Word) : (s.accept w).rounds = s.rounds := rfl
@[simp] theorem State.accept_result (s : State) (w : Word) : (s.accept w).result = s.result := rfl
@[simp] theorem State.accept_opa (s : State) (w : Word) : (s.accept w).opa = s.opa := rfl
@[simp] theorem State.accept_opb (s : State) (w : Word) : (s.accept w).opb = s.opb := rfl
@[simp] theorem State.accept_opc (s : State) (w : Word) : (s.accept w).opc = s.opc := rfl
@[simp] theorem State.accept_opd (s : State) (w : Word) : (s.accept w).opd = s.opd := rfl
@[simp] theorem State.accept_key (s : State) (w : Word) : (s.accept w).key = s.key := rfl
@[simp] theorem State.accept_buf (s : State) (w : Word) : (s.accept w).buf = s.buf := rfl
@[simp] theorem State.accept_sbox (s : State) (w : Word) : (s.accept w).sbox = s.sbox := rfl
@[simp] theorem State.accept_sched (s : State) (w : Word) : (s.accept w).sched = s.sched := rfl
@[simp] theorem State.accept_epoch (s : State) (w : Word) : (s.accept w).epoch = s.epoch := rfl
@[simp] theorem State.accept_draws (s : State) (w : Word) : (s.accept w).draws = s.draws := rfl
@[simp] theorem State.accept_program (s : State) (w : Word) : (s.accept w).program = s.program := rfl
@[simp] theorem State.accept_observed (s : State) (w : Word) : (s.accept w).observed = s.observed := rfl
@[simp] theorem State.accept_turns (s : State) (w : Word) : (s.accept w).turns = s.turns := rfl

/-! complete -/

@[simp] theorem State.complete_params (s : State) (c : ErrCode) : (s.complete c).params = s.params := rfl
@[simp] theorem State.complete_pending (s : State) (c : ErrCode) : (s.complete c).pending = .idle := rfl
@[simp] theorem State.complete_done (s : State) (c : ErrCode) : (s.complete c).done = true := rfl
@[simp] theorem State.complete_err (s : State) (c : ErrCode) : (s.complete c).err = (c != .ok) := rfl
@[simp] theorem State.complete_errcode (s : State) (c : ErrCode) : (s.complete c).errcode = c := rfl
@[simp] theorem State.complete_keyvalid (s : State) (c : ErrCode) : (s.complete c).keyvalid = s.keyvalid := rfl
@[simp] theorem State.complete_ready (s : State) (c : ErrCode) : (s.complete c).ready = s.ready := rfl
@[simp] theorem State.complete_ovr (s : State) (c : ErrCode) : (s.complete c).ovr = s.ovr := rfl
@[simp] theorem State.complete_buserr (s : State) (c : ErrCode) : (s.complete c).buserr = s.buserr := rfl
@[simp] theorem State.complete_lastop (s : State) (c : ErrCode) : (s.complete c).lastop = s.lastop := rfl
@[simp] theorem State.complete_irqen (s : State) (c : ErrCode) : (s.complete c).irqen = s.irqen := rfl
@[simp] theorem State.complete_level (s : State) (c : ErrCode) : (s.complete c).level = s.level := rfl
@[simp] theorem State.complete_keylen (s : State) (c : ErrCode) : (s.complete c).keylen = s.keylen := rfl
@[simp] theorem State.complete_len (s : State) (c : ErrCode) : (s.complete c).len = s.len := rfl
@[simp] theorem State.complete_size (s : State) (c : ErrCode) : (s.complete c).size = s.size := rfl
@[simp] theorem State.complete_rounds (s : State) (c : ErrCode) : (s.complete c).rounds = s.rounds := rfl
@[simp] theorem State.complete_result (s : State) (c : ErrCode) : (s.complete c).result = s.result := rfl
@[simp] theorem State.complete_opa (s : State) (c : ErrCode) : (s.complete c).opa = s.opa := rfl
@[simp] theorem State.complete_opb (s : State) (c : ErrCode) : (s.complete c).opb = s.opb := rfl
@[simp] theorem State.complete_opc (s : State) (c : ErrCode) : (s.complete c).opc = s.opc := rfl
@[simp] theorem State.complete_opd (s : State) (c : ErrCode) : (s.complete c).opd = s.opd := rfl
@[simp] theorem State.complete_key (s : State) (c : ErrCode) : (s.complete c).key = s.key := rfl
@[simp] theorem State.complete_buf (s : State) (c : ErrCode) : (s.complete c).buf = s.buf := rfl
@[simp] theorem State.complete_sbox (s : State) (c : ErrCode) : (s.complete c).sbox = s.sbox := rfl
@[simp] theorem State.complete_sched (s : State) (c : ErrCode) : (s.complete c).sched = s.sched := rfl
@[simp] theorem State.complete_epoch (s : State) (c : ErrCode) : (s.complete c).epoch = s.epoch := rfl
@[simp] theorem State.complete_draws (s : State) (c : ErrCode) : (s.complete c).draws = s.draws := rfl
@[simp] theorem State.complete_program (s : State) (c : ErrCode) : (s.complete c).program = s.program := rfl
@[simp] theorem State.complete_observed (s : State) (c : ErrCode) : (s.complete c).observed = s.observed := rfl
@[simp] theorem State.complete_turns (s : State) (c : ErrCode) : (s.complete c).turns = s.turns := rfl

/-! memWrite -/

@[simp] theorem State.memWrite_params (s : State) (a : Nat) (v : Word) : (s.memWrite a v).params = s.params := rfl
@[simp] theorem State.memWrite_pending (s : State) (a : Nat) (v : Word) : (s.memWrite a v).pending = s.pending := rfl
@[simp] theorem State.memWrite_done (s : State) (a : Nat) (v : Word) : (s.memWrite a v).done = s.done := rfl
@[simp] theorem State.memWrite_err (s : State) (a : Nat) (v : Word) : (s.memWrite a v).err = s.err := rfl
@[simp] theorem State.memWrite_errcode (s : State) (a : Nat) (v : Word) : (s.memWrite a v).errcode = s.errcode := rfl
@[simp] theorem State.memWrite_keyvalid (s : State) (a : Nat) (v : Word) : (s.memWrite a v).keyvalid = s.keyvalid := rfl
@[simp] theorem State.memWrite_ready (s : State) (a : Nat) (v : Word) : (s.memWrite a v).ready = s.ready := rfl
@[simp] theorem State.memWrite_ovr (s : State) (a : Nat) (v : Word) : (s.memWrite a v).ovr = s.ovr := rfl
@[simp] theorem State.memWrite_buserr (s : State) (a : Nat) (v : Word) : (s.memWrite a v).buserr = s.buserr := rfl
@[simp] theorem State.memWrite_lastop (s : State) (a : Nat) (v : Word) : (s.memWrite a v).lastop = s.lastop := rfl
@[simp] theorem State.memWrite_irqen (s : State) (a : Nat) (v : Word) : (s.memWrite a v).irqen = s.irqen := rfl
@[simp] theorem State.memWrite_level (s : State) (a : Nat) (v : Word) : (s.memWrite a v).level = s.level := rfl
@[simp] theorem State.memWrite_keylen (s : State) (a : Nat) (v : Word) : (s.memWrite a v).keylen = s.keylen := rfl
@[simp] theorem State.memWrite_len (s : State) (a : Nat) (v : Word) : (s.memWrite a v).len = s.len := rfl
@[simp] theorem State.memWrite_size (s : State) (a : Nat) (v : Word) : (s.memWrite a v).size = s.size := rfl
@[simp] theorem State.memWrite_rounds (s : State) (a : Nat) (v : Word) : (s.memWrite a v).rounds = s.rounds := rfl
@[simp] theorem State.memWrite_result (s : State) (a : Nat) (v : Word) : (s.memWrite a v).result = s.result := rfl
@[simp] theorem State.memWrite_opa (s : State) (a : Nat) (v : Word) : (s.memWrite a v).opa = s.opa := rfl
@[simp] theorem State.memWrite_opb (s : State) (a : Nat) (v : Word) : (s.memWrite a v).opb = s.opb := rfl
@[simp] theorem State.memWrite_opc (s : State) (a : Nat) (v : Word) : (s.memWrite a v).opc = s.opc := rfl
@[simp] theorem State.memWrite_opd (s : State) (a : Nat) (v : Word) : (s.memWrite a v).opd = s.opd := rfl
@[simp] theorem State.memWrite_key (s : State) (a : Nat) (v : Word) : (s.memWrite a v).key = s.key := rfl
@[simp] theorem State.memWrite_buf (s : State) (a : Nat) (v : Word) : (s.memWrite a v).buf = bufWrite s.buf a v := rfl
@[simp] theorem State.memWrite_sbox (s : State) (a : Nat) (v : Word) : (s.memWrite a v).sbox = s.sbox := rfl
@[simp] theorem State.memWrite_sched (s : State) (a : Nat) (v : Word) : (s.memWrite a v).sched = s.sched := rfl
@[simp] theorem State.memWrite_epoch (s : State) (a : Nat) (v : Word) : (s.memWrite a v).epoch = s.epoch := rfl
@[simp] theorem State.memWrite_draws (s : State) (a : Nat) (v : Word) : (s.memWrite a v).draws = s.draws := rfl
@[simp] theorem State.memWrite_program (s : State) (a : Nat) (v : Word) : (s.memWrite a v).program = s.program := rfl
@[simp] theorem State.memWrite_observed (s : State) (a : Nat) (v : Word) : (s.memWrite a v).observed = s.observed := rfl
@[simp] theorem State.memWrite_turns (s : State) (a : Nat) (v : Word) : (s.memWrite a v).turns = s.turns := rfl

/-! busError -/

@[simp] theorem State.busError_params (s : State) : (s.busError).params = s.params := rfl
@[simp] theorem State.busError_pending (s : State) : (s.busError).pending = s.pending := rfl
@[simp] theorem State.busError_done (s : State) : (s.busError).done = s.done := rfl
@[simp] theorem State.busError_err (s : State) : (s.busError).err = s.err := rfl
@[simp] theorem State.busError_errcode (s : State) : (s.busError).errcode = s.errcode := rfl
@[simp] theorem State.busError_keyvalid (s : State) : (s.busError).keyvalid = s.keyvalid := rfl
@[simp] theorem State.busError_ready (s : State) : (s.busError).ready = s.ready := rfl
@[simp] theorem State.busError_ovr (s : State) : (s.busError).ovr = s.ovr := rfl
@[simp] theorem State.busError_buserr (s : State) : (s.busError).buserr = true := rfl
@[simp] theorem State.busError_lastop (s : State) : (s.busError).lastop = s.lastop := rfl
@[simp] theorem State.busError_irqen (s : State) : (s.busError).irqen = s.irqen := rfl
@[simp] theorem State.busError_level (s : State) : (s.busError).level = s.level := rfl
@[simp] theorem State.busError_keylen (s : State) : (s.busError).keylen = s.keylen := rfl
@[simp] theorem State.busError_len (s : State) : (s.busError).len = s.len := rfl
@[simp] theorem State.busError_size (s : State) : (s.busError).size = s.size := rfl
@[simp] theorem State.busError_rounds (s : State) : (s.busError).rounds = s.rounds := rfl
@[simp] theorem State.busError_result (s : State) : (s.busError).result = s.result := rfl
@[simp] theorem State.busError_opa (s : State) : (s.busError).opa = s.opa := rfl
@[simp] theorem State.busError_opb (s : State) : (s.busError).opb = s.opb := rfl
@[simp] theorem State.busError_opc (s : State) : (s.busError).opc = s.opc := rfl
@[simp] theorem State.busError_opd (s : State) : (s.busError).opd = s.opd := rfl
@[simp] theorem State.busError_key (s : State) : (s.busError).key = s.key := rfl
@[simp] theorem State.busError_buf (s : State) : (s.busError).buf = s.buf := rfl
@[simp] theorem State.busError_sbox (s : State) : (s.busError).sbox = s.sbox := rfl
@[simp] theorem State.busError_sched (s : State) : (s.busError).sched = s.sched := rfl
@[simp] theorem State.busError_epoch (s : State) : (s.busError).epoch = s.epoch := rfl
@[simp] theorem State.busError_draws (s : State) : (s.busError).draws = s.draws := rfl
@[simp] theorem State.busError_program (s : State) : (s.busError).program = s.program := rfl
@[simp] theorem State.busError_observed (s : State) : (s.busError).observed = s.observed := rfl
@[simp] theorem State.busError_turns (s : State) : (s.busError).turns = s.turns := rfl

/-! overrun -/

@[simp] theorem State.overrun_params (s : State) : (s.overrun).params = s.params := rfl
@[simp] theorem State.overrun_pending (s : State) : (s.overrun).pending = s.pending := rfl
@[simp] theorem State.overrun_done (s : State) : (s.overrun).done = s.done := rfl
@[simp] theorem State.overrun_err (s : State) : (s.overrun).err = s.err := rfl
@[simp] theorem State.overrun_errcode (s : State) : (s.overrun).errcode = s.errcode := rfl
@[simp] theorem State.overrun_keyvalid (s : State) : (s.overrun).keyvalid = s.keyvalid := rfl
@[simp] theorem State.overrun_ready (s : State) : (s.overrun).ready = s.ready := rfl
@[simp] theorem State.overrun_ovr (s : State) : (s.overrun).ovr = true := rfl
@[simp] theorem State.overrun_buserr (s : State) : (s.overrun).buserr = s.buserr := rfl
@[simp] theorem State.overrun_lastop (s : State) : (s.overrun).lastop = s.lastop := rfl
@[simp] theorem State.overrun_irqen (s : State) : (s.overrun).irqen = s.irqen := rfl
@[simp] theorem State.overrun_level (s : State) : (s.overrun).level = s.level := rfl
@[simp] theorem State.overrun_keylen (s : State) : (s.overrun).keylen = s.keylen := rfl
@[simp] theorem State.overrun_len (s : State) : (s.overrun).len = s.len := rfl
@[simp] theorem State.overrun_size (s : State) : (s.overrun).size = s.size := rfl
@[simp] theorem State.overrun_rounds (s : State) : (s.overrun).rounds = s.rounds := rfl
@[simp] theorem State.overrun_result (s : State) : (s.overrun).result = s.result := rfl
@[simp] theorem State.overrun_opa (s : State) : (s.overrun).opa = s.opa := rfl
@[simp] theorem State.overrun_opb (s : State) : (s.overrun).opb = s.opb := rfl
@[simp] theorem State.overrun_opc (s : State) : (s.overrun).opc = s.opc := rfl
@[simp] theorem State.overrun_opd (s : State) : (s.overrun).opd = s.opd := rfl
@[simp] theorem State.overrun_key (s : State) : (s.overrun).key = s.key := rfl
@[simp] theorem State.overrun_buf (s : State) : (s.overrun).buf = s.buf := rfl
@[simp] theorem State.overrun_sbox (s : State) : (s.overrun).sbox = s.sbox := rfl
@[simp] theorem State.overrun_sched (s : State) : (s.overrun).sched = s.sched := rfl
@[simp] theorem State.overrun_epoch (s : State) : (s.overrun).epoch = s.epoch := rfl
@[simp] theorem State.overrun_draws (s : State) : (s.overrun).draws = s.draws := rfl
@[simp] theorem State.overrun_program (s : State) : (s.overrun).program = s.program := rfl
@[simp] theorem State.overrun_observed (s : State) : (s.overrun).observed = s.observed := rfl
@[simp] theorem State.overrun_turns (s : State) : (s.overrun).turns = s.turns := rfl

/-! writeStatus -/

@[simp] theorem State.writeStatus_params (s : State) (v : Word) : (s.writeStatus v).params = s.params := rfl
@[simp] theorem State.writeStatus_pending (s : State) (v : Word) : (s.writeStatus v).pending = s.pending := rfl
@[simp] theorem State.writeStatus_done (s : State) (v : Word) : (s.writeStatus v).done = (s.done && !v.getLsbD 1) := rfl
@[simp] theorem State.writeStatus_err (s : State) (v : Word) : (s.writeStatus v).err = s.err := rfl
@[simp] theorem State.writeStatus_errcode (s : State) (v : Word) : (s.writeStatus v).errcode = s.errcode := rfl
@[simp] theorem State.writeStatus_keyvalid (s : State) (v : Word) : (s.writeStatus v).keyvalid = s.keyvalid := rfl
@[simp] theorem State.writeStatus_ready (s : State) (v : Word) : (s.writeStatus v).ready = s.ready := rfl
@[simp] theorem State.writeStatus_ovr (s : State) (v : Word) : (s.writeStatus v).ovr = (s.ovr && !v.getLsbD 5) := rfl
@[simp] theorem State.writeStatus_buserr (s : State) (v : Word) : (s.writeStatus v).buserr = (s.buserr && !v.getLsbD 6) := rfl
@[simp] theorem State.writeStatus_lastop (s : State) (v : Word) : (s.writeStatus v).lastop = s.lastop := rfl
@[simp] theorem State.writeStatus_irqen (s : State) (v : Word) : (s.writeStatus v).irqen = s.irqen := rfl
@[simp] theorem State.writeStatus_level (s : State) (v : Word) : (s.writeStatus v).level = s.level := rfl
@[simp] theorem State.writeStatus_keylen (s : State) (v : Word) : (s.writeStatus v).keylen = s.keylen := rfl
@[simp] theorem State.writeStatus_len (s : State) (v : Word) : (s.writeStatus v).len = s.len := rfl
@[simp] theorem State.writeStatus_size (s : State) (v : Word) : (s.writeStatus v).size = s.size := rfl
@[simp] theorem State.writeStatus_rounds (s : State) (v : Word) : (s.writeStatus v).rounds = s.rounds := rfl
@[simp] theorem State.writeStatus_result (s : State) (v : Word) : (s.writeStatus v).result = s.result := rfl
@[simp] theorem State.writeStatus_opa (s : State) (v : Word) : (s.writeStatus v).opa = s.opa := rfl
@[simp] theorem State.writeStatus_opb (s : State) (v : Word) : (s.writeStatus v).opb = s.opb := rfl
@[simp] theorem State.writeStatus_opc (s : State) (v : Word) : (s.writeStatus v).opc = s.opc := rfl
@[simp] theorem State.writeStatus_opd (s : State) (v : Word) : (s.writeStatus v).opd = s.opd := rfl
@[simp] theorem State.writeStatus_key (s : State) (v : Word) : (s.writeStatus v).key = s.key := rfl
@[simp] theorem State.writeStatus_buf (s : State) (v : Word) : (s.writeStatus v).buf = s.buf := rfl
@[simp] theorem State.writeStatus_sbox (s : State) (v : Word) : (s.writeStatus v).sbox = s.sbox := rfl
@[simp] theorem State.writeStatus_sched (s : State) (v : Word) : (s.writeStatus v).sched = s.sched := rfl
@[simp] theorem State.writeStatus_epoch (s : State) (v : Word) : (s.writeStatus v).epoch = s.epoch := rfl
@[simp] theorem State.writeStatus_draws (s : State) (v : Word) : (s.writeStatus v).draws = s.draws := rfl
@[simp] theorem State.writeStatus_program (s : State) (v : Word) : (s.writeStatus v).program = s.program := rfl
@[simp] theorem State.writeStatus_observed (s : State) (v : Word) : (s.writeStatus v).observed = s.observed := rfl
@[simp] theorem State.writeStatus_turns (s : State) (v : Word) : (s.writeStatus v).turns = s.turns := rfl

/-! writeIrqen -/

@[simp] theorem State.writeIrqen_params (s : State) (v : Word) : (s.writeIrqen v).params = s.params := rfl
@[simp] theorem State.writeIrqen_pending (s : State) (v : Word) : (s.writeIrqen v).pending = s.pending := rfl
@[simp] theorem State.writeIrqen_done (s : State) (v : Word) : (s.writeIrqen v).done = s.done := rfl
@[simp] theorem State.writeIrqen_err (s : State) (v : Word) : (s.writeIrqen v).err = s.err := rfl
@[simp] theorem State.writeIrqen_errcode (s : State) (v : Word) : (s.writeIrqen v).errcode = s.errcode := rfl
@[simp] theorem State.writeIrqen_keyvalid (s : State) (v : Word) : (s.writeIrqen v).keyvalid = s.keyvalid := rfl
@[simp] theorem State.writeIrqen_ready (s : State) (v : Word) : (s.writeIrqen v).ready = s.ready := rfl
@[simp] theorem State.writeIrqen_ovr (s : State) (v : Word) : (s.writeIrqen v).ovr = s.ovr := rfl
@[simp] theorem State.writeIrqen_buserr (s : State) (v : Word) : (s.writeIrqen v).buserr = s.buserr := rfl
@[simp] theorem State.writeIrqen_lastop (s : State) (v : Word) : (s.writeIrqen v).lastop = s.lastop := rfl
@[simp] theorem State.writeIrqen_irqen (s : State) (v : Word) : (s.writeIrqen v).irqen = v.getLsbD 0 := rfl
@[simp] theorem State.writeIrqen_level (s : State) (v : Word) : (s.writeIrqen v).level = s.level := rfl
@[simp] theorem State.writeIrqen_keylen (s : State) (v : Word) : (s.writeIrqen v).keylen = s.keylen := rfl
@[simp] theorem State.writeIrqen_len (s : State) (v : Word) : (s.writeIrqen v).len = s.len := rfl
@[simp] theorem State.writeIrqen_size (s : State) (v : Word) : (s.writeIrqen v).size = s.size := rfl
@[simp] theorem State.writeIrqen_rounds (s : State) (v : Word) : (s.writeIrqen v).rounds = s.rounds := rfl
@[simp] theorem State.writeIrqen_result (s : State) (v : Word) : (s.writeIrqen v).result = s.result := rfl
@[simp] theorem State.writeIrqen_opa (s : State) (v : Word) : (s.writeIrqen v).opa = s.opa := rfl
@[simp] theorem State.writeIrqen_opb (s : State) (v : Word) : (s.writeIrqen v).opb = s.opb := rfl
@[simp] theorem State.writeIrqen_opc (s : State) (v : Word) : (s.writeIrqen v).opc = s.opc := rfl
@[simp] theorem State.writeIrqen_opd (s : State) (v : Word) : (s.writeIrqen v).opd = s.opd := rfl
@[simp] theorem State.writeIrqen_key (s : State) (v : Word) : (s.writeIrqen v).key = s.key := rfl
@[simp] theorem State.writeIrqen_buf (s : State) (v : Word) : (s.writeIrqen v).buf = s.buf := rfl
@[simp] theorem State.writeIrqen_sbox (s : State) (v : Word) : (s.writeIrqen v).sbox = s.sbox := rfl
@[simp] theorem State.writeIrqen_sched (s : State) (v : Word) : (s.writeIrqen v).sched = s.sched := rfl
@[simp] theorem State.writeIrqen_epoch (s : State) (v : Word) : (s.writeIrqen v).epoch = s.epoch := rfl
@[simp] theorem State.writeIrqen_draws (s : State) (v : Word) : (s.writeIrqen v).draws = s.draws := rfl
@[simp] theorem State.writeIrqen_program (s : State) (v : Word) : (s.writeIrqen v).program = s.program := rfl
@[simp] theorem State.writeIrqen_observed (s : State) (v : Word) : (s.writeIrqen v).observed = s.observed := rfl
@[simp] theorem State.writeIrqen_turns (s : State) (v : Word) : (s.writeIrqen v).turns = s.turns := rfl

/-! initStep -/

@[simp] theorem State.initStep_params (s : State) : (s.initStep).params = s.params := rfl
@[simp] theorem State.initStep_pending (s : State) : (s.initStep).pending = .idle := rfl
@[simp] theorem State.initStep_done (s : State) : (s.initStep).done = s.done := rfl
@[simp] theorem State.initStep_err (s : State) : (s.initStep).err = s.err := rfl
@[simp] theorem State.initStep_errcode (s : State) : (s.initStep).errcode = s.errcode := rfl
@[simp] theorem State.initStep_keyvalid (s : State) : (s.initStep).keyvalid = s.keyvalid := rfl
@[simp] theorem State.initStep_ready (s : State) : (s.initStep).ready = true := rfl
@[simp] theorem State.initStep_ovr (s : State) : (s.initStep).ovr = s.ovr := rfl
@[simp] theorem State.initStep_buserr (s : State) : (s.initStep).buserr = s.buserr := rfl
@[simp] theorem State.initStep_lastop (s : State) : (s.initStep).lastop = s.lastop := rfl
@[simp] theorem State.initStep_irqen (s : State) : (s.initStep).irqen = s.irqen := rfl
@[simp] theorem State.initStep_level (s : State) : (s.initStep).level = s.level := rfl
@[simp] theorem State.initStep_keylen (s : State) : (s.initStep).keylen = s.keylen := rfl
@[simp] theorem State.initStep_len (s : State) : (s.initStep).len = s.len := rfl
@[simp] theorem State.initStep_size (s : State) : (s.initStep).size = s.size := rfl
@[simp] theorem State.initStep_rounds (s : State) : (s.initStep).rounds = s.rounds := rfl
@[simp] theorem State.initStep_result (s : State) : (s.initStep).result = s.result := rfl
@[simp] theorem State.initStep_opa (s : State) : (s.initStep).opa = s.opa := rfl
@[simp] theorem State.initStep_opb (s : State) : (s.initStep).opb = s.opb := rfl
@[simp] theorem State.initStep_opc (s : State) : (s.initStep).opc = s.opc := rfl
@[simp] theorem State.initStep_opd (s : State) : (s.initStep).opd = s.opd := rfl
@[simp] theorem State.initStep_key (s : State) : (s.initStep).key = s.key := rfl
@[simp] theorem State.initStep_buf (s : State) : (s.initStep).buf = s.buf := rfl
@[simp] theorem State.initStep_sbox (s : State) : (s.initStep).sbox = builtSbox := rfl
@[simp] theorem State.initStep_sched (s : State) : (s.initStep).sched = s.sched := rfl
@[simp] theorem State.initStep_epoch (s : State) : (s.initStep).epoch = s.epoch := rfl
@[simp] theorem State.initStep_draws (s : State) : (s.initStep).draws = s.draws := rfl
@[simp] theorem State.initStep_program (s : State) : (s.initStep).program = s.program := rfl
@[simp] theorem State.initStep_observed (s : State) : (s.initStep).observed = s.observed := rfl
@[simp] theorem State.initStep_turns (s : State) : (s.initStep).turns = s.turns := rfl

/-! loadKey -/

@[simp] theorem State.loadKey_params (s : State) (n r : Nat) : (s.loadKey n r).params = s.params := rfl
@[simp] theorem State.loadKey_pending (s : State) (n r : Nat) : (s.loadKey n r).pending = s.pending := rfl
@[simp] theorem State.loadKey_done (s : State) (n r : Nat) : (s.loadKey n r).done = s.done := rfl
@[simp] theorem State.loadKey_err (s : State) (n r : Nat) : (s.loadKey n r).err = s.err := rfl
@[simp] theorem State.loadKey_errcode (s : State) (n r : Nat) : (s.loadKey n r).errcode = s.errcode := rfl
@[simp] theorem State.loadKey_keyvalid (s : State) (n r : Nat) : (s.loadKey n r).keyvalid = true := rfl
@[simp] theorem State.loadKey_ready (s : State) (n r : Nat) : (s.loadKey n r).ready = s.ready := rfl
@[simp] theorem State.loadKey_ovr (s : State) (n r : Nat) : (s.loadKey n r).ovr = s.ovr := rfl
@[simp] theorem State.loadKey_buserr (s : State) (n r : Nat) : (s.loadKey n r).buserr = s.buserr := rfl
@[simp] theorem State.loadKey_lastop (s : State) (n r : Nat) : (s.loadKey n r).lastop = s.lastop := rfl
@[simp] theorem State.loadKey_irqen (s : State) (n r : Nat) : (s.loadKey n r).irqen = s.irqen := rfl
@[simp] theorem State.loadKey_level (s : State) (n r : Nat) : (s.loadKey n r).level = s.level := rfl
@[simp] theorem State.loadKey_keylen (s : State) (n r : Nat) : (s.loadKey n r).keylen = s.keylen := rfl
@[simp] theorem State.loadKey_len (s : State) (n r : Nat) : (s.loadKey n r).len = s.len := rfl
@[simp] theorem State.loadKey_size (s : State) (n r : Nat) : (s.loadKey n r).size = BitVec.ofNat 32 n := rfl
@[simp] theorem State.loadKey_rounds (s : State) (n r : Nat) : (s.loadKey n r).rounds = BitVec.ofNat 32 r := rfl
@[simp] theorem State.loadKey_result (s : State) (n r : Nat) : (s.loadKey n r).result = s.result := rfl
@[simp] theorem State.loadKey_opa (s : State) (n r : Nat) : (s.loadKey n r).opa = s.opa := rfl
@[simp] theorem State.loadKey_opb (s : State) (n r : Nat) : (s.loadKey n r).opb = s.opb := rfl
@[simp] theorem State.loadKey_opc (s : State) (n r : Nat) : (s.loadKey n r).opc = s.opc := rfl
@[simp] theorem State.loadKey_opd (s : State) (n r : Nat) : (s.loadKey n r).opd = s.opd := rfl
@[simp] theorem State.loadKey_key (s : State) (n r : Nat) : (s.loadKey n r).key = s.key := rfl
@[simp] theorem State.loadKey_buf (s : State) (n r : Nat) : (s.loadKey n r).buf = s.buf := rfl
@[simp] theorem State.loadKey_sbox (s : State) (n r : Nat) : (s.loadKey n r).sbox = s.sbox := rfl
@[simp] theorem State.loadKey_sched (s : State) (n r : Nat) : (s.loadKey n r).sched = loadedSched s.params.nmax (keySchedule s.keyByte n r) r := rfl
@[simp] theorem State.loadKey_epoch (s : State) (n r : Nat) : (s.loadKey n r).epoch = s.epoch := rfl
@[simp] theorem State.loadKey_draws (s : State) (n r : Nat) : (s.loadKey n r).draws = s.draws := rfl
@[simp] theorem State.loadKey_program (s : State) (n r : Nat) : (s.loadKey n r).program = s.program := rfl
@[simp] theorem State.loadKey_observed (s : State) (n r : Nat) : (s.loadKey n r).observed = s.observed := rfl
@[simp] theorem State.loadKey_turns (s : State) (n r : Nat) : (s.loadKey n r).turns = s.turns := rfl

/-! eraseKey -/

@[simp] theorem State.eraseKey_params (s : State) : (s.eraseKey).params = s.params := rfl
@[simp] theorem State.eraseKey_pending (s : State) : (s.eraseKey).pending = s.pending := rfl
@[simp] theorem State.eraseKey_done (s : State) : (s.eraseKey).done = s.done := rfl
@[simp] theorem State.eraseKey_err (s : State) : (s.eraseKey).err = s.err := rfl
@[simp] theorem State.eraseKey_errcode (s : State) : (s.eraseKey).errcode = s.errcode := rfl
@[simp] theorem State.eraseKey_keyvalid (s : State) : (s.eraseKey).keyvalid = false := rfl
@[simp] theorem State.eraseKey_ready (s : State) : (s.eraseKey).ready = s.ready := rfl
@[simp] theorem State.eraseKey_ovr (s : State) : (s.eraseKey).ovr = s.ovr := rfl
@[simp] theorem State.eraseKey_buserr (s : State) : (s.eraseKey).buserr = s.buserr := rfl
@[simp] theorem State.eraseKey_lastop (s : State) : (s.eraseKey).lastop = s.lastop := rfl
@[simp] theorem State.eraseKey_irqen (s : State) : (s.eraseKey).irqen = s.irqen := rfl
@[simp] theorem State.eraseKey_level (s : State) : (s.eraseKey).level = s.level := rfl
@[simp] theorem State.eraseKey_keylen (s : State) : (s.eraseKey).keylen = s.keylen := rfl
@[simp] theorem State.eraseKey_len (s : State) : (s.eraseKey).len = s.len := rfl
@[simp] theorem State.eraseKey_size (s : State) : (s.eraseKey).size = 0 := rfl
@[simp] theorem State.eraseKey_rounds (s : State) : (s.eraseKey).rounds = 0 := rfl
@[simp] theorem State.eraseKey_result (s : State) : (s.eraseKey).result = s.result := rfl
@[simp] theorem State.eraseKey_opa (s : State) : (s.eraseKey).opa = s.opa := rfl
@[simp] theorem State.eraseKey_opb (s : State) : (s.eraseKey).opb = s.opb := rfl
@[simp] theorem State.eraseKey_opc (s : State) : (s.eraseKey).opc = s.opc := rfl
@[simp] theorem State.eraseKey_opd (s : State) : (s.eraseKey).opd = s.opd := rfl
@[simp] theorem State.eraseKey_key (s : State) : (s.eraseKey).key = [] := rfl
@[simp] theorem State.eraseKey_buf (s : State) : (s.eraseKey).buf = s.buf := rfl
@[simp] theorem State.eraseKey_sbox (s : State) : (s.eraseKey).sbox = s.sbox := rfl
@[simp] theorem State.eraseKey_sched (s : State) : (s.eraseKey).sched = List.replicate (16 * s.params.nmax) SubKey.zero := rfl
@[simp] theorem State.eraseKey_epoch (s : State) : (s.eraseKey).epoch = s.epoch := rfl
@[simp] theorem State.eraseKey_draws (s : State) : (s.eraseKey).draws = s.draws := rfl
@[simp] theorem State.eraseKey_program (s : State) : (s.eraseKey).program = s.program := rfl
@[simp] theorem State.eraseKey_observed (s : State) : (s.eraseKey).observed = s.observed := rfl
@[simp] theorem State.eraseKey_turns (s : State) : (s.eraseKey).turns = s.turns := rfl

end Sys2Proof.Machine
end

