-- ==== Sys2Proof/Laws/Memory.lean ====
section
/-! SUPPORT. Memory: a read after a write, and every write keeps the canonical form. -/

namespace Sys2Proof.Machine

/-! What an address reads as after a write. -/

theorem Memory.get?_put (m : List Host.Cell) (a x : Nat) (b : Byte) :
    Memory.get? (Memory.put m a b) x = if x = a then some b else Memory.get? m x := by
  induction m with
  | nil => simp only [Memory.put, Memory.get?, eq_comm]
  | cons c m ih =>
    rcases Nat.lt_trichotomy a c.1 with h | h | h
    · simp [Memory.put, Memory.get?, h, eq_comm]
    · obtain ⟨c1, c2⟩ := c
      subst h
      by_cases hx : a = x <;> simp [Memory.put, Memory.get?, hx, eq_comm]
    · simp only [Memory.put, Memory.get?, if_neg (Nat.lt_asymm h), if_neg (Nat.ne_of_gt h), ih]
      by_cases hx : x = a
      · simp [hx, Nat.ne_of_lt h]
      · simp [hx]

/-- Strictly rising addresses. -/
abbrev Memory.Rising (m : List Host.Cell) : Prop := m.Pairwise fun c d => c.1 < d.1

theorem Memory.get?_eq_none (m : List Host.Cell) (x : Nat) (h : ∀ c ∈ m, x < c.1) : Memory.get? m x = none := by
  induction m with
  | nil => rfl
  | cons c m ih =>
    have hc := h c (by simp)
    simp [Memory.get?, Nat.ne_of_gt hc, ih fun d hd => h d (by simp [hd])]

theorem Memory.get?_erase {m : List Host.Cell} (hm : Memory.Rising m) (a x : Nat) :
    Memory.get? (Memory.erase m a) x = if x = a then none else Memory.get? m x := by
  induction m with
  | nil => simp [Memory.erase, Memory.get?]
  | cons c m ih =>
    obtain ⟨c1, c2⟩ := c
    obtain ⟨hc, hm'⟩ := List.pairwise_cons.mp hm
    by_cases h : a = c1
    · subst h
      by_cases hx : x = a
      · subst hx; simpa [Memory.erase] using Memory.get?_eq_none m _ hc
      · simp [Memory.erase, Memory.get?, hx, Ne.symm hx]
    · by_cases hx : x = a
      · subst hx; simp [Memory.erase, Memory.get?, h, Ne.symm h, ih hm']
      · simp [Memory.erase, Memory.get?, h, hx, ih hm']

/-! The cells after a write. -/

theorem Memory.mem_put {m : List Host.Cell} {a : Nat} {b : Byte} {c : Host.Cell} (h : c ∈ Memory.put m a b) :
    c = (a, b) ∨ c ∈ m := by
  induction m with
  | nil => simpa [Memory.put] using h
  | cons d m ih =>
    simp only [Memory.put] at h
    split_ifs at h <;> simp only [List.mem_cons] at h ⊢ <;> tauto

theorem Memory.mem_erase {m : List Host.Cell} {a : Nat} {c : Host.Cell} (h : c ∈ Memory.erase m a) : c ∈ m := by
  induction m with
  | nil => simp [Memory.erase] at h
  | cons d m ih =>
    simp only [Memory.erase] at h
    split_ifs at h <;> simp only [List.mem_cons] at h ⊢ <;> tauto

theorem Memory.put_rising {m : List Host.Cell} (hm : Memory.Rising m) (a : Nat) (b : Byte) :
    Memory.Rising (Memory.put m a b) := by
  induction m with
  | nil => simp [Memory.put, Memory.Rising]
  | cons d m ih =>
    obtain ⟨hd, hm'⟩ := List.pairwise_cons.mp hm
    simp only [Memory.put]
    split_ifs with h1 h2
    · refine List.pairwise_cons.mpr ⟨fun c hc => ?_, hm⟩
      rcases List.mem_cons.mp hc with rfl | hc
      · exact h1
      · exact h1.trans (hd c hc)
    · exact List.pairwise_cons.mpr ⟨fun c hc => h2 ▸ hd c hc, hm'⟩
    · refine List.pairwise_cons.mpr ⟨fun c hc => ?_, ih hm'⟩
      rcases Memory.mem_put hc with rfl | hc
      · show d.1 < a
        omega
      · exact hd c hc

theorem Memory.erase_rising {m : List Host.Cell} (hm : Memory.Rising m) (a : Nat) :
    Memory.Rising (Memory.erase m a) := by
  induction m with
  | nil => simp [Memory.erase, Memory.Rising]
  | cons d m ih =>
    obtain ⟨hd, hm'⟩ := List.pairwise_cons.mp hm
    simp only [Memory.erase]
    split_ifs
    · exact hm'
    · exact List.pairwise_cons.mpr ⟨fun c hc => hd c (Memory.mem_erase hc), ih hm'⟩

/-! The canonical form. -/

theorem Memory.wf_iff {n : Nat} {p : Byte → Bool} {m : List Host.Cell} :
    Memory.wf n p m = true ↔ Memory.Rising m ∧ ∀ c ∈ m, c.1 < n ∧ p c.2 = true := by
  simp [Memory.wf, Memory.Rising]

theorem Memory.wf_nil (n : Nat) (p : Byte → Bool) : Memory.wf n p [] = true := by simp [Memory.wf_iff, Memory.Rising]

theorem Memory.wf_put {n : Nat} {p : Byte → Bool} {m : List Host.Cell} (h : Memory.wf n p m = true) {a : Nat} {b : Byte}
    (ha : a < n) (hb : p b = true) : Memory.wf n p (Memory.put m a b) = true := by
  rw [Memory.wf_iff] at h ⊢
  refine ⟨Memory.put_rising h.1 a b, fun c hc => ?_⟩
  rcases Memory.mem_put hc with rfl | hc
  · exact ⟨ha, hb⟩
  · exact h.2 c hc

theorem Memory.wf_erase {n : Nat} {p : Byte → Bool} {m : List Host.Cell} (h : Memory.wf n p m = true) (a : Nat) :
    Memory.wf n p (Memory.erase m a) = true := by
  rw [Memory.wf_iff] at h ⊢
  exact ⟨Memory.erase_rising h.1 a, fun c hc => h.2 c (Memory.mem_erase hc)⟩

/-! KEY: an unlisted byte reads 0, and no 0 is listed. -/

theorem keyPut_wf {p : Params} {m : List Host.Cell} (h : keyWf p m = true) {a : Nat} (ha : a < 8 * p.nmax) (b : Byte) :
    keyWf p (keyPut m a b) = true := by
  unfold keyPut
  split_ifs with hb
  · exact Memory.wf_erase h a
  · exact Memory.wf_put h ha (by simpa using hb)

theorem keyWrite_wf {p : Params} {m : List Host.Cell} (h : keyWf p m = true) {a : Nat} (ha : a + 3 < 8 * p.nmax) (v : Word) :
    keyWf p (keyWrite m a v) = true :=
  keyPut_wf (keyPut_wf (keyPut_wf (keyPut_wf h (by omega) _) (by omega) _) (by omega) _) ha _

theorem keyPut_read {p : Params} {m : List Host.Cell} (h : keyWf p m = true) (a x : Nat) (b : Byte) :
    (Memory.get? (keyPut m a b) x).getD 0 = if x = a then b else (Memory.get? m x).getD 0 := by
  unfold keyPut
  split_ifs with hb hx hx
  · simp [Memory.get?_erase (Memory.wf_iff.mp h).1, hx, hb]
  · simp [Memory.get?_erase (Memory.wf_iff.mp h).1, hx]
  · simp [Memory.get?_put, hx]
  · simp [Memory.get?_put, hx]

/-! BUF: an unlisted byte holds no value. -/

theorem bufWrite_wf {p : Params} {m : List Host.Cell} (h : bufWf p m = true) {a : Nat} (ha : a + 3 < p.bufBytes) (v : Word) :
    bufWf p (bufWrite m a v) = true :=
  Memory.wf_put (Memory.wf_put (Memory.wf_put (Memory.wf_put h (by omega) rfl) (by omega) rfl) (by omega) rfl) ha rfl

/-! Byte order. -/

theorem wordOf_getLsbD (b0 b1 b2 b3 : Byte) (i : Nat) : (wordOf b0 b1 b2 b3).getLsbD i =
    if i < 8 then b3.getLsbD i else if i - 8 < 8 then b2.getLsbD (i - 8)
    else if i - 8 - 8 < 8 then b1.getLsbD (i - 8 - 8) else b0.getLsbD (i - 8 - 8 - 8) := by
  unfold wordOf
  rw [BitVec.getLsbD_append, BitVec.getLsbD_append, BitVec.getLsbD_append]

theorem byteOf_getLsbD (v : Word) (n i : Nat) :
    (byteOf v n).getLsbD i = (decide (i < 8) && v.getLsbD (24 - 8 * n + i)) := by
  simp [byteOf, BitVec.getLsbD_extractLsb']

theorem wordOf_byteOf (v : Word) : wordOf (byteOf v 0) (byteOf v 1) (byteOf v 2) (byteOf v 3) = v := by
  apply BitVec.eq_of_getLsbD_eq
  intro i hi
  simp only [wordOf_getLsbD, byteOf_getLsbD]
  split
  · simp [*]
  split
  · simp only [*, decide_true, Bool.true_and]; congr 1; omega
  split
  · simp only [*, decide_true, Bool.true_and]; congr 1; omega
  · rw [decide_eq_true (by omega), Bool.true_and]; congr 1; omega

theorem byteOf_wordOf (b0 b1 b2 b3 : Byte) :
    byteOf (wordOf b0 b1 b2 b3) 0 = b0 ∧ byteOf (wordOf b0 b1 b2 b3) 1 = b1 ∧
    byteOf (wordOf b0 b1 b2 b3) 2 = b2 ∧ byteOf (wordOf b0 b1 b2 b3) 3 = b3 := by
  refine ⟨?_, ?_, ?_, ?_⟩ <;> apply BitVec.eq_of_getLsbD_eq <;> intro i hi <;>
    simp only [byteOf_getLsbD, hi, decide_true, Bool.true_and, wordOf_getLsbD]
  · rw [if_neg (by omega), if_neg (by omega), if_neg (by omega)]; congr 1; omega
  · rw [if_neg (by omega), if_neg (by omega), if_pos (by omega)]; congr 1; omega
  · rw [if_neg (by omega), if_pos (by omega)]; congr 1; omega
  · rw [if_pos (by omega)]; congr 1; omega

/-- The four bytes of a word written to BUF read back big-endian, and every other byte is as before (R12, R67). -/
theorem State.bufByte_memWrite (s : State) (a x : Nat) (v : Word) :
    (s.memWrite a v).bufByte x =
      if a ≤ x ∧ x < a + 4 then byteOf v (x - a) else s.bufByte x := by
  simp only [State.bufByte, State.memWrite_buf, State.memWrite_epoch, bufWrite, Memory.get?_put]
  by_cases h0 : x = a
  · subst h0; simp
  by_cases h1 : x = a + 1
  · subst h1; simp
  by_cases h2 : x = a + 2
  · subst h2; simp
  by_cases h3 : x = a + 3
  · subst h3; simp
  · have : ¬ (a ≤ x ∧ x < a + 4) := by omega
    simp [h0, h1, h2, h3, this]

theorem State.memRead_memWrite (s : State) (a : Nat) (v : Word) : (s.memWrite a v).memRead a = v := by
  simp only [State.memRead, State.bufByte_memWrite]
  simp [show a + 1 - a = 1 by omega, show a + 2 - a = 2 by omega, show a + 3 - a = 3 by omega, wordOf_byteOf]

theorem State.memRead_memWrite_ne (s : State) {a x : Nat} (v : Word) (h : x + 4 ≤ a ∨ a + 4 ≤ x) :
    (s.memWrite a v).memRead x = s.memRead x := by
  simp only [State.memRead, State.bufByte_memWrite]
  rw [if_neg (by omega), if_neg (by omega), if_neg (by omega), if_neg (by omega)]

/-- The four bytes of a word written to KEY read back big-endian, and every other byte is as before (R62). -/
theorem keyWrite_read {p : Params} {m : List Host.Cell} (h : keyWf p m = true) {a : Nat} (ha : a + 3 < 8 * p.nmax) (v : Word)
    (x : Nat) :
    (Memory.get? (keyWrite m a v) x).getD 0 =
      if a ≤ x ∧ x < a + 4 then byteOf v (x - a) else (Memory.get? m x).getD 0 := by
  have h0 := keyPut_wf h (show a < 8 * p.nmax by omega) (byteOf v 0)
  have h1 := keyPut_wf h0 (show a + 1 < 8 * p.nmax by omega) (byteOf v 1)
  have h2 := keyPut_wf h1 (show a + 2 < 8 * p.nmax by omega) (byteOf v 2)
  rw [keyWrite, keyPut_read h2, keyPut_read h1, keyPut_read h0, keyPut_read h]
  by_cases e0 : x = a
  · subst e0; simp
  by_cases e1 : x = a + 1
  · subst e1; simp
  by_cases e2 : x = a + 2
  · subst e2; simp
  by_cases e3 : x = a + 3
  · subst e3; simp
  · have : ¬ (a ≤ x ∧ x < a + 4) := by omega
    simp [e0, e1, e2, e3, this]

/-! Reset. -/

theorem reset_memory_wf : keyWf State.reset.params State.reset.key = true ∧ bufWf State.reset.params State.reset.buf = true :=
  ⟨Memory.wf_nil _ _, Memory.wf_nil _ _⟩

end Sys2Proof.Machine
end

