-- ==== Sys2Proof/Laws/Cipher.lean ====
section
/-! SUPPORT. The block driver: what Transform does to BUF, and what ENCRYPT and DECRYPT answer. -/

namespace Sys2Proof.Machine

/-- A state with another BUF. -/
theorem State.memWrite_eq (s : State) (a : Nat) (v : Word) : s.memWrite a v = { s with buf := bufWrite s.buf a v } := rfl

theorem transformBlock_eq (fn : Word × Word → Word × Word) (s : State) (b : Nat) :
    transformBlock fn s b = { s with buf := (transformBlock fn s b).buf } := rfl

theorem transformBlock_params (fn : Word × Word → Word × Word) (s : State) (b : Nat) :
    (transformBlock fn s b).params = s.params := rfl

/-- One block: its own eight bytes are its image, every other byte is as before (R223). -/
theorem transformBlock_block (fn : Word × Word → Word × Word) (s : State) (b : Nat) :
    ((transformBlock fn s b).memRead (8 * b), (transformBlock fn s b).memRead (8 * b + 4)) =
      fn (s.memRead (8 * b), s.memRead (8 * b + 4)) := by
  unfold transformBlock
  rw [State.memRead_memWrite, State.memRead_memWrite_ne _ _ (.inl (by omega)), State.memRead_memWrite]

theorem transformBlock_bufByte (fn : Word × Word → Word × Word) (s : State) {b a : Nat} (h : a < 8 * b ∨ 8 * b + 8 ≤ a) :
    (transformBlock fn s b).bufByte a = s.bufByte a := by
  unfold transformBlock
  rw [State.bufByte_memWrite, if_neg (by omega), State.bufByte_memWrite, if_neg (by omega)]

theorem transformBlock_wf (fn : Word × Word → Word × Word) {s : State} {b : Nat} (h : bufWf s.params s.buf = true)
    (hb : 8 * b + 8 ≤ s.params.bufBytes) :
    bufWf s.params (transformBlock fn s b).buf = true :=
  bufWrite_wf (bufWrite_wf h (by omega) _) (by omega) _

/-- The blocks below `n`, transformed in order: only BUF changes, each block is the image of what it held, and no byte from
8n on changes (R223). -/
theorem transformBlocks_spec (fn : Word × Word → Word × Word) (s : State) (n : Nat) :
    let t := (List.range n).foldl (transformBlock fn) s
    t = { s with buf := t.buf } ∧
    (∀ b, b < n → (t.memRead (8 * b), t.memRead (8 * b + 4)) = fn (s.memRead (8 * b), s.memRead (8 * b + 4))) ∧
    (∀ a, 8 * n ≤ a → t.bufByte a = s.bufByte a) := by
  induction n with
  | zero => exact ⟨rfl, fun b hb => absurd hb (Nat.not_lt_zero b), fun _ _ => rfl⟩
  | succ n ih =>
    simp only [List.range_succ, List.foldl_append, List.foldl_cons, List.foldl_nil]
    generalize (List.range n).foldl (transformBlock fn) s = t at ih
    obtain ⟨h1, h2, h3⟩ := ih
    have old : ∀ x, 8 * n ≤ x → t.memRead x = s.memRead x := fun x hx => by
      simp only [State.memRead]; rw [h3 _ hx, h3 _ (by omega), h3 _ (by omega), h3 _ (by omega)]
    have keep : ∀ x, x + 4 ≤ 8 * n → (transformBlock fn t n).memRead x = t.memRead x := fun x hx => by
      simp only [State.memRead]
      rw [transformBlock_bufByte _ _ (.inl (by omega)), transformBlock_bufByte _ _ (.inl (by omega)),
        transformBlock_bufByte _ _ (.inl (by omega)), transformBlock_bufByte _ _ (.inl (by omega))]
    refine ⟨?_, fun b hb => ?_, fun a ha => ?_⟩
    · rw [transformBlock_eq, h1]
    · rcases Nat.lt_succ_iff_lt_or_eq.mp hb with hb | rfl
      · rw [keep _ (by omega), keep _ (by omega), h2 b hb]
      · rw [transformBlock_block, old _ le_rfl, old _ (by omega)]
    · rw [transformBlock_bufByte _ _ (.inr (by omega)), h3 a (by omega)]

theorem transformBlocks_wf (fn : Word × Word → Word × Word) {s : State} (h : bufWf s.params s.buf = true) {n : Nat}
    (hn : 8 * n ≤ s.params.bufBytes) :
    bufWf s.params ((List.range n).foldl (transformBlock fn) s).buf = true := by
  induction n with
  | zero => exact h
  | succ n ih =>
    simp only [List.range_succ, List.foldl_append, List.foldl_cons, List.foldl_nil]
    have hp : ((List.range n).foldl (transformBlock fn) s).params = s.params := by
      rw [(transformBlocks_spec fn s n).1]
    have := transformBlock_wf fn (s := (List.range n).foldl (transformBlock fn) s) (b := n)
    rw [hp] at this
    exact this (ih (by omega)) (by omega)

/-- Transform changes BUF only (R224). -/
theorem State.transform_eq (s : State) (fn : Word × Word → Word × Word) :
    s.transform fn = { s with buf := (s.transform fn).buf } := (transformBlocks_spec fn s _).1

/-- The two ends of ENCRYPT and DECRYPT: validation fails and nothing but the completion happens, or the transform is done
(R225). -/
theorem State.runCipher_cases (s : State) (fn : Word × Word → Word × Word) :
    (s.validate ≠ .ok ∧ s.runCipher fn = s.complete s.validate) ∨
    (s.validate = .ok ∧ s.runCipher fn = (s.transform fn).complete .ok) := by
  unfold State.runCipher
  split
  · exact .inr ⟨‹_›, rfl⟩
  · exact .inl ⟨‹_›, rfl⟩

theorem State.validate_eq_ok {s : State} : s.validate = .ok ↔
    s.keyvalid = true ∧ s.len.toNat ≠ 0 ∧ s.len.toNat % 8 = 0 ∧ s.len.toNat ≤ s.params.bufBytes := by
  unfold State.validate
  by_cases hk : s.keyvalid = false
  · simp [hk]
  · rw [if_neg hk, Bool.not_eq_false] at *
    split <;> simp only [reduceCtorEq, false_iff, true_iff, hk, true_and] <;> omega

end Sys2Proof.Machine
end

