-- ==== Sys2Proof/Laws/HostPort.lean ====
section
/-! SUPPORT. The host port: what each offset reaches, and everything a read or a write can do. -/

namespace Sys2Proof.Machine

theorem State.busy_eq_false {s : State} : s.busy = false ↔ s.pending = .idle := by
  unfold State.busy; cases s.pending <;> simp

theorem State.busy_eq_true {s : State} : s.busy = true ↔ s.pending ≠ .idle := by
  unfold State.busy; cases s.pending <;> simp

theorem regAt_ne_window {o : Nat} {w : Nat} : regAt o ≠ some (.keyWord w) ∧ regAt o ≠ some (.bufWord w) := by
  constructor <;> (unfold regAt; split <;> simp)

/-- A KEY window word lies within KEY (R62). -/
theorem accessLoc_key {p : Params} {off : Offset} {size w : Nat} (h : accessLoc p off size = some (.keyWord w)) :
    4 * w + 3 < 8 * p.nmax := by
  unfold accessLoc locAt at h
  split at h
  · split at h
    · exact absurd h regAt_ne_window.1
    split at h
    · simp only [Option.some.injEq, Loc.keyWord.injEq] at h; omega
    split at h <;> simp at h
  · simp at h

/-- A BUF window word lies within BUF (R62). -/
theorem accessLoc_buf {p : Params} {off : Offset} {size w : Nat} (h : accessLoc p off size = some (.bufWord w)) :
    4 * w + 3 < p.bufBytes := by
  unfold accessLoc locAt at h
  split at h
  · split at h
    · exact absurd h regAt_ne_window.2
    split at h
    · simp at h
    split at h
    · simp only [Option.some.injEq, Loc.bufWord.injEq] at h
      have := p.bufBytes_mod
      omega
    · simp at h
  · simp at h

/-- The offset of every location of the register map reaches that location (R20, R62, R96). -/
theorem accessLoc_register (p : Params) (l : Loc) (h : ∀ w, l ≠ .keyWord w ∧ l ≠ .bufWord w) :
    accessLoc p l.offset 4 = some l := by
  cases l <;> first | rfl | exact absurd rfl (h _).1 | exact absurd rfl (h _).2

theorem accessLoc_keyWord (p : Params) {w : Nat} (h : w < 2 * p.nmax) :
    accessLoc p (Loc.offset (.keyWord w)) 4 = some (.keyWord w) := by
  have hn := p.nmax_le
  have e : (Loc.offset (.keyWord w)).toNat = 0x400 + 4 * w := by
    simp only [Loc.offset, BitVec.toNat_ofNat]; omega
  have h1 : (1024 + 4 * w) % 4 = 0 := by omega
  simp only [accessLoc, locAt, e, true_and, if_pos h1]
  rw [if_neg (by omega), if_pos (by omega)]
  congr 2; omega

theorem accessLoc_bufWord (p : Params) {w : Nat} (h : w < p.bufBytes / 4) :
    accessLoc p (Loc.offset (.bufWord w)) 4 = some (.bufWord w) := by
  have hn := p.nmax_le
  have hb := p.bufBytes_le
  have e : (Loc.offset (.bufWord w)).toNat = 0x1000 + 4 * w := by
    simp only [Loc.offset, BitVec.toNat_ofNat]; omega
  have h1 : (4096 + 4 * w) % 4 = 0 := by omega
  simp only [accessLoc, locAt, e, true_and, if_pos h1]
  rw [if_neg (by omega), if_neg (by omega), if_pos (by omega)]
  congr 2; omega

/-- A read of STATUS (R23). -/
theorem State.hostRead_status (s : State) : s.hostRead Loc.status.offset 4 = (s.statusWord, s) := rfl

/-- Bit 0 of STATUS is BUSY (R23). -/
theorem State.statusWord_busy (s : State) : s.statusWord.getLsbD 0 = s.busy := by
  unfold State.statusWord
  simp only [BitVec.getLsbD_append]
  simp

/-- Everything a read can do to the state: nothing, BUSERR (an unsupported read), or a draw (a read while busy). -/
theorem State.hostRead_state (s : State) (off : Offset) (size : Nat) :
    (s.hostRead off size).2 = s ∨ (s.hostRead off size).2 = s.busError ∨
      (s.busy = true ∧ (s.hostRead off size).2 = s.draw.2) := by
  unfold State.hostRead
  split
  · exact .inr (.inl rfl)
  · rename_i l _
    cases l <;> simp only [State.readLoc, State.readResult] <;> first
      | exact .inl trivial
      | (split
         · exact .inr (.inr ⟨‹_›, rfl⟩)
         · exact .inl rfl)

/-- Everything a write can do: one of the listed updates, a store only when the block is not busy. -/
theorem State.hostWrite_ind {P : State → Prop} (s : State) (off : Offset) (size : Nat) (v : Word)
    (busErr : P s.busError)
    (dropped : s.busy = true → P s.overrun)
    (status : P (s.writeStatus v))
    (irqen : P (s.writeIrqen v))
    (cmd : s.busy = false → P (s.accept v))
    (level : s.busy = false → P { s with level := v })
    (keylen : s.busy = false → P { s with keylen := v })
    (len : s.busy = false → P { s with len := v })
    (opa : s.busy = false → P { s with opa := v })
    (opb : s.busy = false → P { s with opb := v })
    (opc : s.busy = false → P { s with opc := v })
    (opd : s.busy = false → P { s with opd := v })
    (key : ∀ w, s.busy = false → 4 * w + 3 < 8 * s.params.nmax → P { s with key := keyWrite s.key (4 * w) v })
    (buf : ∀ w, s.busy = false → 4 * w + 3 < s.params.bufBytes → P (s.memWrite (4 * w) v)) :
    P (s.hostWrite off size v) := by
  have stored : ∀ t : State, (s.busy = false → P t) → P (s.unlessBusy t) := fun t h => by
    unfold State.unlessBusy
    by_cases hb : s.busy = true
    · rw [if_pos hb]; exact dropped hb
    · rw [if_neg hb]; exact h (by simpa using hb)
  unfold State.hostWrite
  split
  · exact busErr
  · rename_i l hl
    cases l <;> simp only [State.writeLoc] <;> first
      | exact busErr
      | exact status
      | exact irqen
      | exact stored _ cmd
      | exact stored _ level
      | exact stored _ keylen
      | exact stored _ len
      | exact stored _ opa
      | exact stored _ opb
      | exact stored _ opc
      | exact stored _ opd
      | exact stored _ fun hb => key _ hb (accessLoc_key hl)
      | exact stored _ fun hb => buf _ hb (accessLoc_buf hl)

end Sys2Proof.Machine
end

