-- ==== Sys2Proof/Laws/KeySchedule.lean ====
section
/-! SUPPORT. The key-schedule expander: lengths, what a write of entries leaves, and what KEYSET loads. -/

namespace Sys2Proof.Machine

theorem expand8_length (kb : KeyBuf) (rot : List (Fin 4)) : (expand8 kb rot).2.length = rot.length := by
  induction rot generalizing kb with
  | nil => rfl
  | cons kr rot ih => simp [expand8, ih]

@[simp] theorem keyrotForward_length : keyrotForward.length = 8 := rfl

@[simp] theorem keyrotMirrored_length : keyrotMirrored.length = 8 := rfl

@[simp] theorem putEntries_length (S : List SubKey) (n : Nat) (es : List SubKey) :
    (putEntries S n es).length = S.length := by
  induction es generalizing S n with
  | nil => rfl
  | cons e es ih => simp [putEntries, ih]

/-- The entries written stand at n, n+1, ...; every other entry is as before (R174). -/
theorem putEntries_getElem? (S : List SubKey) (n : Nat) (es : List SubKey) (h : n + es.length ≤ S.length) (r : Nat) :
    (putEntries S n es)[r]? = if n ≤ r ∧ r < n + es.length then es[r - n]? else S[r]? := by
  induction es generalizing S n with
  | nil => simp only [putEntries, List.length_nil]; rw [if_neg (by omega)]
  | cons e es ih =>
    simp only [List.length_cons] at h
    rw [putEntries, ih (S.set n e) (n + 1) (by simp; omega)]
    by_cases h0 : r = n
    · subst h0
      rw [if_neg (by omega), if_pos (by simp), List.getElem?_set_self (by omega)]; simp
    · rw [List.getElem?_set_ne (by omega)]
      by_cases h1 : n + 1 ≤ r ∧ r < n + 1 + es.length
      · rw [if_pos h1, if_pos (by simp only [List.length_cons]; omega)]
        rw [show r - n = (r - (n + 1)) + 1 by omega, List.getElem?_cons_succ]
      · rw [if_neg h1, if_neg (by simp only [List.length_cons]; omega)]

@[simp] theorem scheduleBlock_length (key : Nat → Byte) (rounds : Nat) (S : List SubKey) (i : Nat) :
    (scheduleBlock key rounds S i).length = S.length := by simp [scheduleBlock]

@[simp] theorem scheduleBlocks_length (key : Nat → Byte) (rounds : Nat) (S : List SubKey) (n : Nat) :
    ((List.range n).foldl (scheduleBlock key rounds) S).length = S.length := by
  induction n with
  | zero => rfl
  | succ n ih => simp [List.range_succ, ih]

@[simp] theorem keySchedule_length (key : Nat → Byte) (size rounds : Nat) : (keySchedule key size rounds).length = rounds := by
  unfold keySchedule
  split <;> simp

@[simp] theorem loadedSched_length (nmax : Nat) (S : List SubKey) (rounds : Nat) :
    (loadedSched nmax S rounds).length = 16 * nmax := by simp [loadedSched]

/-- What KEYSET leaves in an entry of SCHED (R182, R183). -/
theorem loadedSched_getD (nmax : Nat) (S : List SubKey) (rounds r : Nat) :
    (loadedSched nmax S rounds).getD r SubKey.zero =
      if r < 16 * nmax ∧ r < rounds then S.getD r SubKey.zero else SubKey.zero := by
  unfold loadedSched
  by_cases h : r < 16 * nmax
  · simp [List.getD, h]
  · simp [List.getD, h]

/-- LevelParams in closed form (R172). -/
theorem levelParams_fst (lvl : Int) : (levelParams lvl).1 = if lvl < 1 then 1 else lvl.toNat := by
  unfold levelParams; split <;> rfl

theorem levelParams_snd (lvl : Int) : (levelParams lvl).2 = if lvl < 1 then 8 else 16 * lvl.toNat := by
  unfold levelParams; split <;> rfl

theorem State.keysetCheck_eq_ok {s : State} : s.keysetCheck = .ok ↔
    s.level.toInt ≤ s.params.nmax ∧ s.keylen.toNat = 8 * (levelParams s.level.toInt).1 := by
  unfold State.keysetCheck State.levelOperand
  split <;> rename_i h1
  · simp only [reduceCtorEq, false_iff]; omega
  split <;> rename_i h2
  · simp only [reduceCtorEq, false_iff]; omega
  · simp only [true_iff]; omega

/-- The two ends of KEYSET (R182). -/
theorem execKeyset_cases (s : State) :
    (s.keysetCheck ≠ .ok ∧ execKeyset s = .next (s.complete s.keysetCheck)) ∨
    (s.keysetCheck = .ok ∧
      execKeyset s = .next ((s.loadKey (levelParams s.level.toInt).1 (levelParams s.level.toInt).2).complete .ok)) := by
  unfold execKeyset
  split
  · exact .inr ⟨‹_›, rfl⟩
  · exact .inl ⟨‹_›, rfl⟩

end Sys2Proof.Machine
end

