-- ==== Sys2Proof/Laws/Operands.lean ====
section
/-! SUPPORT. The operand fields in the words of R93: the low bits of a register whose other bits are 0. -/

namespace Sys2Proof.Machine

/-- An operand field is there exactly when the bits above it are 0 (R93). -/
theorem lowField_eq (n k : Nat) (w : Word) (h : n + k = 32) :
    lowField n w = if w.extractLsb' n k = 0 then some (w.extractLsb' 0 n) else none := by
  have e : w >>> n = 0 ↔ w.extractLsb' n k = 0 := by
    constructor <;> intro h0 <;> apply BitVec.eq_of_getLsbD_eq <;> intro i hi
    · simpa [BitVec.getLsbD_extractLsb', hi] using congrArg (fun x => x.getLsbD i) h0
    · by_cases hk : i < k
      · simpa [BitVec.getLsbD_extractLsb', hk] using congrArg (fun x => x.getLsbD i) h0
      · simp only [BitVec.getLsbD_ushiftRight, BitVec.ofNat_eq_ofNat, BitVec.getLsbD_zero]
        exact BitVec.getLsbD_of_ge _ _ (by omega)
  have e2 : w.extractLsb' 0 n = w.setWidth n := by
    apply BitVec.eq_of_getLsbD_eq
    intro i hi
    simp [hi]
  unfold lowField
  rw [e2]
  simp only [e]

/-- A modulus is there exactly when OPC[31:9] = 0 and OPC[8] = 1 (R93). -/
theorem modulusField_eq (w : Word) :
    modulusField w = if w.extractLsb' 9 23 = 0 ∧ w.getLsbD 8 = true then some (w.extractLsb' 0 9) else none := by
  have h : (w.extractLsb' 0 9).getLsbD 8 = w.getLsbD 8 := by simp
  unfold modulusField
  rw [lowField_eq 9 23 w rfl]
  by_cases h0 : w.extractLsb' 9 23 = 0
  · by_cases h8 : w.getLsbD 8 = true
    · rw [if_pos h0, if_pos ⟨h0, h8⟩]; simp only [h, h8, if_true]
    · rw [if_pos h0, if_neg fun c => h8 c.2]; simp only [h, h8, if_false, Bool.false_eq_true]
  · rw [if_neg h0, if_neg fun c => h0 c.1]

end Sys2Proof.Machine
end

