-- ==== Sys2Proof/Laws/PerInstr.lean ====
section
/-! SUPPORT. A fact about every command as syntax, one lemma for each constructor: the word of a command is legal (R90, R94). -/

namespace Sys2Proof.Laws.OneWord

/-- The command is well formed, its word has no reserved bit set and an assigned opcode, and no other command has its word. -/
def Statement (i : Instr) : Prop :=
  i.wellFormed = true ∧ rsvField (encode i) = 0 ∧ wellFormedWord (encode i) = true ∧ ∀ j : Instr, encode j = encode i → j = i

theorem nop : Statement .nop := ⟨rfl, by decide, by decide, fun j => by cases j <;> decide⟩
theorem keyset : Statement .keyset := ⟨rfl, by decide, by decide, fun j => by cases j <;> decide⟩
theorem encrypt : Statement .encrypt := ⟨rfl, by decide, by decide, fun j => by cases j <;> decide⟩
theorem decrypt : Statement .decrypt := ⟨rfl, by decide, by decide, fun j => by cases j <;> decide⟩
theorem zeroize : Statement .zeroize := ⟨rfl, by decide, by decide, fun j => by cases j <;> decide⟩
theorem gfmul : Statement .gfmul := ⟨rfl, by decide, by decide, fun j => by cases j <;> decide⟩
theorem gfexp7 : Statement .gfexp7 := ⟨rfl, by decide, by decide, fun j => by cases j <;> decide⟩
theorem perm32 : Statement .perm32 := ⟨rfl, by decide, by decide, fun j => by cases j <;> decide⟩
theorem sboxrd : Statement .sboxrd := ⟨rfl, by decide, by decide, fun j => by cases j <;> decide⟩
theorem roundf : Statement .roundf := ⟨rfl, by decide, by decide, fun j => by cases j <;> decide⟩

end Sys2Proof.Laws.OneWord
end

