-- ==== Sys2Proof/Laws/Step.lean ====
section
/-! SUPPORT. Everything one transition can do: what each command answers, and the cases of a step. -/

namespace Sys2Proof.Machine

/-- The state a diagnostic command leaves (R31, R254). -/
theorem State.diagnose_cases (s : State) (r : Option Word) :
    (r = none ∧ s.diagnose r = s.complete .badOperand) ∨
    (∃ v, r = some v ∧ s.diagnose r = (s.setResult v).complete .ok) := by
  cases r with
  | none => exact .inl ⟨rfl, rfl⟩
  | some v => exact .inr ⟨v, rfl, rfl⟩

/-- Everything a command can do: end with an error that its rule lists and nothing else, or have its effect and end with OK
(R251, R254, R256). -/
theorem exec_ind {P : State → Prop} {i : Instr} {s t : State} (h : exec i s = .next t)
    (fail : ∀ c, c ≠ .ok → P (s.complete c))
    (nop : i = .nop → P (s.complete .ok))
    (keyset : i = .keyset → s.level.toInt ≤ s.params.nmax → s.keylen.toNat = 8 * (levelParams s.level.toInt).1 →
      P ((s.loadKey (levelParams s.level.toInt).1 (levelParams s.level.toInt).2).complete .ok))
    (zeroize : i = .zeroize → P (s.eraseKey.complete .ok))
    (encrypt : i = .encrypt → s.validate = .ok → P ((s.transform s.encryptFn).complete .ok))
    (decrypt : i = .decrypt → s.validate = .ok → P ((s.transform s.decryptFn).complete .ok))
    (diagnostic : ∀ v, i ∈ [Instr.gfmul, .gfexp7, .perm32, .sboxrd, .roundf] → P ((s.setResult v).complete .ok)) :
    P t := by
  have diag : ∀ r : Option Word, i ∈ [Instr.gfmul, .gfexp7, .perm32, .sboxrd, .roundf] → t = s.diagnose r → P t := by
    rintro r hi rfl
    obtain ⟨_, e⟩ | ⟨v, _, e⟩ := s.diagnose_cases r
    · rw [e]; exact fail _ (by simp)
    · rw [e]; exact diagnostic v hi
  have ciph : ∀ fn, (s.validate = .ok → P ((s.transform fn).complete .ok)) → t = s.runCipher fn → P t := by
    rintro fn hok rfl
    obtain ⟨hv, e⟩ | ⟨hv, e⟩ := s.runCipher_cases fn
    · rw [e]; exact fail _ hv
    · rw [e]; exact hok hv
  cases i with
  | nop => obtain rfl := Host.Outcome.next.inj h; exact nop rfl
  | keyset =>
    obtain ⟨hc, e⟩ | ⟨hc, e⟩ := execKeyset_cases s <;> rw [show exec .keyset s = execKeyset s from rfl, e] at h <;>
      obtain rfl := Host.Outcome.next.inj h
    · exact fail _ hc
    · exact keyset rfl (State.keysetCheck_eq_ok.mp hc).1 (State.keysetCheck_eq_ok.mp hc).2
  | encrypt => exact ciph _ (encrypt rfl) (Host.Outcome.next.inj h).symm
  | decrypt => exact ciph _ (decrypt rfl) (Host.Outcome.next.inj h).symm
  | zeroize => obtain rfl := Host.Outcome.next.inj h; exact zeroize rfl
  | gfmul => exact diag _ (by simp) (Host.Outcome.next.inj h).symm
  | gfexp7 => exact diag _ (by simp) (Host.Outcome.next.inj h).symm
  | perm32 => exact diag _ (by simp) (Host.Outcome.next.inj h).symm
  | sboxrd => exact diag _ (by simp) (Host.Outcome.next.inj h).symm
  | roundf => exact diag _ (by simp) (Host.Outcome.next.inj h).symm

/-- The same as cases: what a command can leave. -/
theorem exec_cases {i : Instr} {s t : State} (h : exec i s = .next t) :
    (∃ c, c ≠ .ok ∧ t = s.complete c) ∨
    (i = .nop ∧ t = s.complete .ok) ∨
    (i = .keyset ∧ s.level.toInt ≤ s.params.nmax ∧ s.keylen.toNat = 8 * (levelParams s.level.toInt).1 ∧
      t = (s.loadKey (levelParams s.level.toInt).1 (levelParams s.level.toInt).2).complete .ok) ∨
    (i = .zeroize ∧ t = s.eraseKey.complete .ok) ∨
    (i ∈ [Instr.encrypt, .decrypt] ∧ s.validate = .ok ∧ ∃ fn, t = (s.transform fn).complete .ok) ∨
    (i ∈ [Instr.gfmul, .gfexp7, .perm32, .sboxrd, .roundf] ∧ ∃ v, t = (s.setResult v).complete .ok) := by
  apply exec_ind (P := fun t => _ ∨ _) h
  · exact fun c hc => .inl ⟨c, hc, rfl⟩
  · exact fun hi => .inr (.inl ⟨hi, rfl⟩)
  · exact fun hi h1 h2 => .inr (.inr (.inl ⟨hi, h1, h2, rfl⟩))
  · exact fun hi => .inr (.inr (.inr (.inl ⟨hi, rfl⟩)))
  · exact fun hi hv => .inr (.inr (.inr (.inr (.inl ⟨by simp [hi], hv, _, rfl⟩))))
  · exact fun hi hv => .inr (.inr (.inr (.inr (.inl ⟨by simp [hi], hv, _, rfl⟩))))
  · exact fun v hi => .inr (.inr (.inr (.inr (.inr ⟨hi, v, rfl⟩))))

/-- The cases of a step: the turn that is next moves, from the state with that turn taken (R73). -/
theorem step_cases {s t : State} (h : step s = .next t) :
    ((nextTurn s).1 = .host ∧ t = hostStep s.taken) ∨
    ((nextTurn s).1 = .engine ∧ engineStep s.taken = .next t) ∨
    ((nextTurn s).1 = .reset ∧ t = s.taken.resetInput) := by
  unfold step at h
  revert h
  cases (nextTurn s).1 <;> intro h
  · exact .inl ⟨rfl, (Host.Outcome.next.inj h).symm⟩
  · exact .inr (.inl ⟨rfl, h⟩)
  · exact .inr (.inr ⟨rfl, (Host.Outcome.next.inj h).symm⟩)

/-- The cases of the engine's turn (R39, R91). -/
theorem engineStep_cases {s t : State} (h : engineStep s = .next t) :
    (s.pending = .idle ∧ t = s) ∨
    (s.pending = .init ∧ t = s.initStep) ∨
    (∃ w i, s.pending = .cmd w ∧ decode w = some i ∧ exec i s = .next t) ∨
    (∃ w, s.pending = .cmd w ∧ decode w = none ∧ t = s.complete .illegalCmd) := by
  unfold engineStep at h
  split at h
  · exact .inl ⟨‹_›, (Host.Outcome.next.inj h).symm⟩
  · exact .inr (.inl ⟨‹_›, (Host.Outcome.next.inj h).symm⟩)
  · rename_i w hp
    unfold runCommand at h
    split at h
    · exact .inr (.inr (.inl ⟨w, _, hp, ‹_›, h⟩))
    · exact .inr (.inr (.inr ⟨w, hp, ‹_›, (Host.Outcome.next.inj h).symm⟩))

/-- A host's turn whose access is a write writes that value, and where it reaches (R61, R62). -/
theorem State.writesTo_iff {s : State} {off : Offset} {size : Nat} {v : Word} (h : s.nextAccess = some (.write off size v))
    (l : Loc) (v' : Word) : s.writesTo l v' ↔ v' = v ∧ accessLoc s.params off size = some l := by
  constructor
  · rintro ⟨o, n, h1, h2⟩
    rw [h] at h1
    cases h1
    exact ⟨rfl, h2⟩
  · rintro ⟨rfl, h2⟩
    exact ⟨off, size, h, h2⟩

/-- A host's turn whose access is no write writes nowhere. -/
theorem State.not_writesTo {s : State} (h : ∀ off size v, s.nextAccess ≠ some (.write off size v)) (l : Loc) (v : Word) :
    ¬ s.writesTo l v :=
  fun ⟨off, size, h1, _⟩ => h off size v h1

/-- One read of `wait` (R97): STATUS is observed, and the line stays while BUSY = 1. -/
theorem State.waitStep_eq (s : State) (rest : List HostOp) :
    s.waitStep rest = if s.busy then s.observe s.statusWord else { s.observe s.statusWord with program := rest } := by
  unfold State.waitStep
  simp only [State.hostRead_status, State.statusWord_busy]

/-- The cases of the host's turn: nothing to do, a read, a write, or one read of `wait` (R96, R97). -/
theorem hostStep_cases (s : State) :
    (s.program = [] ∧ hostStep s = s) ∨
    (∃ off size v rest, hostStep s = State.observe (State.hostRead { s with program := rest } off size).2 v) ∨
    (∃ off size v rest, hostStep s = State.hostWrite { s with program := rest } off size v) ∨
    (∃ v rest, hostStep s = State.observe (s.hostRead Loc.status.offset 4).2 v ∨
      hostStep s = { State.observe (s.hostRead Loc.status.offset 4).2 v with program := rest }) := by
  unfold hostStep
  split
  · exact .inl ⟨‹_›, rfl⟩
  · rename_i a rest _
    cases a with
    | read off size => exact .inr (.inl ⟨off, size, _, rest, rfl⟩)
    | write off size v => exact .inr (.inr (.inl ⟨off, size, v, rest, rfl⟩))
  · rename_i rest _
    refine .inr (.inr (.inr ⟨(s.hostRead Loc.status.offset 4).1, rest, ?_⟩))
    unfold State.waitStep
    dsimp only
    split
    · exact .inl rfl
    · exact .inr rfl

end Sys2Proof.Machine
end

