-- ==== Sys2Proof/Laws/Tables.lean ====
section
/-! SUPPORT. The S-boxes that INIT builds, entry by entry, and the rows of their indices. -/

namespace Sys2Proof.Machine

theorem builtSbox_row (k : Fin 4) : builtSbox.getD k.val [] = builtRow k := by
  simp [builtSbox, List.getD]

/-- The entry of SBOX[k] at an index is the generator's (R153). -/
theorem builtSbox_entry (k : Fin 4) (i : SboxIndex) (d : Word) :
    (builtSbox.getD k.val []).getD i.toNat d = sboxEntry k i := by
  rw [builtSbox_row, builtRow]
  simp [List.getD, i.isLt]

/-- A read of SBOX once INIT has built it (R35, R153). -/
theorem State.sboxAt_of_built {s : State} (h : s.sbox = builtSbox) (k : Fin 4) (i : SboxIndex) :
    s.sboxAt k i = sboxEntry k i := by
  unfold State.sboxAt
  rw [h, builtSbox_entry]

/-- Row {i[9], i[0]} of an S-box index as a number (R152). -/
theorem sboxRow_val (i : SboxIndex) : (sboxRow i).val = 2 * (i.getLsbD 9).toNat + (i.getLsbD 0).toNat := by
  have h : ∀ n, i.extractLsb' n 1 = BitVec.ofBool (i.getLsbD n) := fun n => by
    apply BitVec.eq_of_getLsbD_eq
    intro j hj
    obtain rfl : j = 0 := by omega
    simp
  rw [sboxRow, h, h]
  generalize i.getLsbD 9 = a
  generalize i.getLsbD 0 = b
  revert a b
  decide

end Sys2Proof.Machine
end

