-- ==== Sys2Proof/Tests/Slice0.lean ====
section
/-! SUPPORT. Our own tests: each expected value is the spec's (the rule's own example, or the row of 95_test_vectors.md that the
comment names), and, for every obligation with hypotheses, a witness that they can be met. -/

namespace Sys2Proof.Tests

open Sys2Proof.Machine

/-! Small states and what an outcome holds. -/

/-- The outcome is a next state with the property. -/
def answers (o : Host.Outcome State Fault Refusal) (p : State → Bool) : Bool :=
  match o with
  | .next t => p t
  | .fault _ => false
  | .refused _ => false

/-- Idle after INIT, but with no S-boxes in the way of evaluation. -/
def idle : State := { State.reset with pending := .idle, ready := true }

/-- Idle after INIT. -/
def built : State := State.reset.initStep

/-- KEY of known answer K1: de ad be ef 01 23 45 67. -/
def k1Key : List Host.Cell := keyWrite (keyWrite [] 0 0xDEAD_BEEF) 4 0x0123_4567

/-- BUF of known answer K1: fe dc ba 98 76 54 32 10. -/
def k1Buf : List Host.Cell := bufWrite (bufWrite [] 0 0xFEDC_BA98) 4 0x7654_3210

/-- The thin schedule of K1's key in SCHED, and its block in BUF. -/
def loaded : State :=
  { built with
    key := k1Key, keylen := 8, keyvalid := true, size := 1, rounds := 8, len := 8, buf := k1Buf,
    sched := loadedSched 2 (keySchedule (State.keyByte { built with key := k1Key }) 1 8) 8 }

/-- A diagnostic command's operands, idle. -/
def ops (a b c d : Word) : State := { idle with opa := a, opb := b, opc := c, opd := d }

/-- A command word that waits for its engine step. -/
def busyWith (w : Word) : State := { idle with pending := .cmd w }

/-! Well-formedness: each check refuses an ill-formed word (R90, R94). -/

theorem test_wf_refuses_reserved_bit_4 : wellFormedWord 0x0000_0010 = false := by decide
theorem test_wf_refuses_reserved_bit_31 : wellFormedWord 0x8000_0002 = false := by decide
theorem test_wf_refuses_reserved_opcodes :
    [(0x5 : Word), 0x6, 0x7, 0xD, 0xE, 0xF].all (fun w => !wellFormedWord w) = true := by decide
theorem test_wf_accepts_assigned_opcodes :
    [(0x0 : Word), 0x1, 0x2, 0x3, 0x4, 0x8, 0x9, 0xA, 0xB, 0xC].all wellFormedWord = true := by decide

/-! Decoding: the word of each row, bit by bit (R90, R92): RSV = 0 in bits 31 to 4, OP in bits 3 to 0. -/

theorem test_decode_nop : decode 0b0000_0000_0000_0000_0000_0000_0000_0000 = some .nop := by decide
theorem test_decode_keyset : decode 0b0000_0000_0000_0000_0000_0000_0000_0001 = some .keyset := by decide
theorem test_decode_encrypt : decode 0b0000_0000_0000_0000_0000_0000_0000_0010 = some .encrypt := by decide
theorem test_decode_decrypt : decode 0b0000_0000_0000_0000_0000_0000_0000_0011 = some .decrypt := by decide
theorem test_decode_zeroize : decode 0b0000_0000_0000_0000_0000_0000_0000_0100 = some .zeroize := by decide
theorem test_decode_gfmul : decode 0b0000_0000_0000_0000_0000_0000_0000_1000 = some .gfmul := by decide
theorem test_decode_gfexp7 : decode 0b0000_0000_0000_0000_0000_0000_0000_1001 = some .gfexp7 := by decide
theorem test_decode_perm32 : decode 0b0000_0000_0000_0000_0000_0000_0000_1010 = some .perm32 := by decide
theorem test_decode_sboxrd : decode 0b0000_0000_0000_0000_0000_0000_0000_1011 = some .sboxrd := by decide
theorem test_decode_roundf : decode 0b0000_0000_0000_0000_0000_0000_0000_1100 = some .roundf := by decide
theorem test_decode_refuses_reserved_opcodes :
    [(0x5 : Word), 0x6, 0x7, 0xD, 0xE, 0xF].all (fun w => decode w == none) = true := by decide
theorem test_decode_refuses_reserved_bits :
    [(0x0000_0010 : Word), 0x0000_0012, 0x8000_0000].all (fun w => decode w == none) = true := by decide
theorem test_decodeTableWord : decodeTableWord 32 0xB = some .sboxrd ∧ decodeTableWord 8 0x0B = some .sboxrd := by decide

/-! One step of each command, with the STATUS values of 95_test_vectors.md section 4. -/

/-- V3 and R228: NOP leaves STATUS = 0x12. -/
theorem test_nop_status : answers (step (busyWith 0x0)) (fun t => t.statusWord == 0x0000_0012) = true := by decide

/-- R125's example, and that RESULT is then 0xBD. -/
theorem test_gfmul_example : answers (exec .gfmul (ops 0x57 0x13 333 0)) (fun t => t.result == 0xBD) = true := by decide

/-- V11: a modulus below 256 is BAD_OPERAND, and RESULT is as before. -/
theorem test_gfmul_bad_modulus :
    answers (step { busyWith 0x8 with lastop := 8, opc := 0xFF, result := 0x1234 })
      (fun t => t.statusWord == 0x0000_8616 && t.result == 0x1234) = true := by decide

/-- R126's example. -/
theorem test_gfexp7_example : answers (exec .gfexp7 (ops 0x02 0xFFFF_FFFF 333 0)) (fun t => t.result == 0x80) = true := by
  decide

/-- V13. -/
theorem test_gfexp7_bad_modulus :
    answers (step { busyWith 0x9 with lastop := 9, opc := 0x200 }) (fun t => t.statusWord == 0x0000_9616) = true := by decide

/-- R155's example. -/
theorem test_perm32_example : answers (exec .perm32 (ops 0x0000_0002 0 0 0)) (fun t => t.result == 0x0000_0080) = true := by
  decide

/-- R151: all ones is a fixed point. -/
theorem test_perm32_all_ones :
    answers (exec .perm32 (ops 0xFFFF_FFFF 0 0 0)) (fun t => t.result == 0xFFFF_FFFF) = true := by decide +kernel

/-- R156's example: k = 3, i = 0. -/
theorem test_sboxrd_example :
    answers (exec .sboxrd { built with opa := 0x0000_0C00 }) (fun t => t.result == 0x4028_2400) = true := by decide +kernel

/-- V14. -/
theorem test_sboxrd_bad_operand :
    answers (step { busyWith 0xB with lastop := 0xB, opa := 0x1000 }) (fun t => t.statusWord == 0x0000_B616) = true := by decide

/-- F6. -/
theorem test_roundf_f6 :
    answers (exec .roundf { built with opa := 0x1234_5678, opb := 0xF3A33, opc := 0xE03B2, opd := 0xBFC39 })
      (fun t => t.result == 0xBB6C_69E2) = true := by decide +kernel

/-- F8. -/
theorem test_roundf_f8 :
    answers (exec .roundf { built with opa := 0xDEAD_BEEF, opb := 0x12345, opc := 0x6789A, opd := 0xBCDEF })
      (fun t => t.result == 0x7AFA_92C2) = true := by decide +kernel

/-- R182's example: LEVEL = 0 with K1's key. -/
theorem test_keyset_example :
    answers (exec .keyset { idle with keylen := 8, key := k1Key })
      (fun t => t.schedAt 0 == ⟨0xF3A33, 0xE03B2, 0xBFC39⟩ && t.size == 1 && t.rounds == 8 && t.keyvalid) = true := by
  decide +kernel

/-- R252: LEVEL = NMAX+1 with a wrong KEYLEN reports LEVEL_RANGE. -/
theorem test_keyset_level_range_first :
    answers (exec .keyset { idle with level := 3, keylen := 7 }) (fun t => t.errcode == .levelRange && !t.keyvalid) = true := by
  decide

/-- R226's example, known answer K1. -/
theorem test_encrypt_k1 :
    answers (exec .encrypt loaded) (fun t => t.memRead 0 == 0xDE24_0D83 && t.memRead 4 == 0xA00A_9CC0) = true := by
  decide +kernel

/-- V4: without a key and with LEN = 7, ENCRYPT reports NO_KEY. -/
theorem test_encrypt_no_key_first :
    answers (step { busyWith 0x2 with lastop := 2, len := 7 }) (fun t => t.statusWord == 0x0000_2416) = true := by decide

/-- R227's corner case: DECRYPT of a block that was never encrypted. -/
theorem test_decrypt_corner :
    answers (exec .decrypt loaded) (fun t => t.memRead 0 == 0x3BC0_A958 && t.memRead 4 == 0xA6DD_DD35) = true := by
  decide +kernel

/-- R184's example. -/
theorem test_zeroize_example :
    answers (exec .zeroize { idle with keyvalid := true, size := 1, rounds := 8, key := k1Key })
      (fun t => t.size == 0 && t.rounds == 0 && !t.keyvalid && t.keyByte 0 == 0 && t.errcode == .ok) = true := by decide

/-- V8 and V10: an illegal word reports ILLEGAL_CMD. -/
theorem test_illegal_words :
    answers (step { busyWith 0x5 with lastop := 5 }) (fun t => t.statusWord == 0x0000_5116) = true ∧
    answers (step { busyWith 0x12 with lastop := 2 }) (fun t => t.statusWord == 0x0000_2116) = true := by decide

/-! Reset, the host port, and how a program comes to run. -/

/-- V1 and V2: STATUS at reset, and after INIT. -/
theorem test_reset_then_init :
    State.reset.statusWord = 0x0000_0001 ∧ answers (step State.reset) (fun t => t.statusWord == 0x0000_0010) = true := by decide

/-- R153's example: SBOX[0][0]. -/
theorem test_init_entry : sboxEntry 0 0 = 0x0004_0842 := by decide

/-- The word placed by withFetchWord is what the next step runs. -/
theorem test_withFetchWord_runs :
    answers (step (State.reset.withFetchWord 32 0xA)) (fun t => t.pending == .idle && t.done && t.errcode == .ok) = true := by
  decide

/-- V18 and V19: a write to SIZE, and a read past BUF, set BUSERR; the read returns 0. -/
theorem test_port_anomalies :
    (idle.hostWrite 0x020 4 1).buserr = true ∧ (idle.hostWrite 0x020 4 1).size = 0 ∧
    (idle.hostRead 0x1020 4).1 = 0 ∧ (idle.hostRead 0x1020 4).2.buserr = true ∧ (idle.hostRead 0x1001 4).2.buserr = true := by
  decide

/-- V21 and V17: a write to OPA while busy is dropped; a KEY word reads 0. -/
theorem test_port_busy_write :
    ((busyWith 0).hostWrite 0x030 4 5).ovr = true ∧ ((busyWith 0).hostWrite 0x030 4 5).opa = 0 ∧
    State.hostRead { idle with key := k1Key } 0x400 4 = (0, { idle with key := k1Key }) := by decide

/-- R62: a BUF word is stored and read big-endian. -/
theorem test_port_big_endian :
    (State.hostRead (idle.hostWrite 0x1008 4 0x0102_0304) 0x1008 4).1 = 0x0102_0304 ∧
    (idle.hostWrite 0x1008 4 0x0102_0304).bufByte 8 = 0x01 := by decide

/-- R97: the transactions of `run NOP` and `clrerr`. -/
theorem test_assemble :
    assemble [.run .nop, .clrerr] =
      [.access (.write 0x008 4 0), .wait, .access (.write 0x00C 4 0x62)] := by decide

/-! Witnesses: every obligation with hypotheses, with a state and operands that meet them. -/

/-- A state that meets the invariant, with the S-boxes built. -/
theorem built_inv : State.Inv built where
  ready_iff := by decide
  sbox_eq := rfl
  key_wf := by decide
  buf_wf := by decide
  sched_length := by decide
  sched_zero := fun r _ => by
    rw [State.schedAt, show built.sched = List.replicate 32 SubKey.zero from rfl, List.getD, List.getElem?_replicate]
    split <;> rfl
  loaded := by decide
  unloaded := by decide
  busy_clear := by decide
  err_iff := by decide
  lastop_eq := nofun

/-- A state that meets the invariant, with a schedule of zeros loaded and LEN = n. -/
def keyedState (n : Word) : State := { built with keyvalid := true, size := 1, rounds := 8, len := n }

theorem keyedState_inv (n : Word) : State.Inv (keyedState n) :=
  { built_inv with
    ready_iff := ⟨nofun, nofun⟩
    sched_zero := fun r _ => built_inv.sched_zero r (Nat.zero_le r)
    loaded := fun _ => ⟨le_refl 1, show 1 ≤ 2 by decide, .inl ⟨rfl, rfl⟩⟩
    unloaded := nofun
    busy_clear := nofun
    err_iff := ⟨nofun, fun h => absurd rfl h⟩
    lastop_eq := nofun }

theorem witness_DecodeEncodeAgree : decode 0x0000_000C = some .roundf := by decide

theorem witness_StepRunsDecodedCommand :
    (∃ (s : State) (w : Word) (i : Instr) (ts : List Turn),
      s.pending = .cmd w ∧ decode w = some i ∧ s.turns = .engine :: ts) ∧
    ∃ (s : State) (w : Word) (i : Instr), s.pending = .cmd w ∧ decode w = some i ∧ s.turns = [] :=
  ⟨⟨State.reset.withFetchWord 32 0xC, 0xC, .roundf, [], rfl, by decide, rfl⟩, busyWith 0x1, 0x1, .keyset, rfl, by decide, rfl⟩

/-- The boundary words: the lowest and the highest reserved bit, and the first and last reserved opcodes. -/
theorem witness_IllegalWordCompletesWithError :
    (∀ w : Word, (busyWith w).pending = .cmd w ∧ (nextTurn (busyWith w)).1 = .engine) ∧
    (∀ w ∈ [(0x0000_0010 : Word), 0x8000_0000], w.extractLsb' 4 28 ≠ 0) ∧
    ∀ w ∈ [(0x5 : Word), 0x6, 0x7, 0xD, 0xE, 0xF],
      (w.extractLsb' 0 4).toNat ∈ [0x5, 0x6, 0x7, 0xD, 0xE, 0xF] :=
  ⟨fun _ => ⟨rfl, rfl⟩, by simp, by simp⟩

theorem witness_InitBuildsSboxes :
    State.reset.pending = .init ∧ (nextTurn State.reset).1 = .engine ∧
    (∃ row : Fin 4, row.val = 2 * ((0 : SboxIndex).getLsbD 9).toNat + ((0 : SboxIndex).getLsbD 0).toNat) ∧
    ∃ row : Fin 4, row.val = 2 * ((1023 : SboxIndex).getLsbD 9).toNat + ((1023 : SboxIndex).getLsbD 0).toNat :=
  ⟨rfl, rfl, ⟨0, by decide⟩, 3, by decide⟩

theorem witness_HostTurnPerformsTransaction :
    (nextTurn idle).1 = .host ∧ idle.program = [] ∧
    (let s := { idle with program := [.access (.write 0x030 4 7)] }
     (nextTurn s).1 = .host ∧ s.program = [.access (.write 0x030 4 7)]) ∧
    (let s := { idle with program := [.access (.read 0x00C 4)] }
     (nextTurn s).1 = .host ∧ s.program = [.access (.read 0x00C 4)]) ∧
    (let s := { busyWith 0x2 with program := [.wait], turns := [.host] }
     (nextTurn s).1 = .host ∧ s.program = [.wait] ∧ s.busy = true) ∧
    (let s := { idle with program := [.wait] }
     (nextTurn s).1 = .host ∧ s.program = [.wait] ∧ s.busy = false) := by decide

/-- From the reset state, the step to the next. -/
theorem witness_StepKeepsInvariant : State.Inv built ∧ ∃ t, step built = .next t := ⟨built_inv, _, rfl⟩

theorem witness_ResetGivesResetValues : (nextTurn { loaded with turns := [.reset] }).1 = .reset := rfl

/-- Operands in range at their boundaries, and each operand out of range. -/
theorem witness_GfmulResult :
    (∀ s ∈ [ops 0xFF 0xFF 0x1FF 0, ops 0 0 0x100 0],
      s.opa.extractLsb' 8 24 = 0 ∧ s.opb.extractLsb' 8 24 = 0 ∧ s.opc.extractLsb' 9 23 = 0 ∧ s.opc.getLsbD 8 = true) ∧
    (∀ s ∈ [ops 0x100 0 0x100 0, ops 0 0x100 0x100 0, ops 0 0 0x300 0, ops 0 0 0xFF 0],
      s.opa.extractLsb' 8 24 ≠ 0 ∨ s.opb.extractLsb' 8 24 ≠ 0 ∨ s.opc.extractLsb' 9 23 ≠ 0 ∨ s.opc.getLsbD 8 = false) := by
  decide

theorem witness_Gfexp7Result :
    (∀ s ∈ [ops 0xFF 0x100 0x1FF 0, ops 0 0 0x100 0],
      s.opa.extractLsb' 8 24 = 0 ∧ s.opc.extractLsb' 9 23 = 0 ∧ s.opc.getLsbD 8 = true) ∧
    (∀ s ∈ [ops 0x100 0 0x100 0, ops 0 0 0x300 0, ops 0 0 0xFF 0],
      s.opa.extractLsb' 8 24 ≠ 0 ∨ s.opc.extractLsb' 9 23 ≠ 0 ∨ s.opc.getLsbD 8 = false) := by decide

/-- The last entry of the last S-box, in a state that meets the invariant, and the first OPA out of range. -/
theorem witness_SboxrdResult :
    (let s := { built with opa := 0xFFF }
     s.opa.extractLsb' 12 20 = 0 ∧ (3 : Fin 4).val = (s.opa.extractLsb' 10 2).toNat ∧ s.Inv ∧ s.ready = true) ∧
    (ops 0x1000 0 0 0).opa.extractLsb' 12 20 ≠ 0 :=
  ⟨⟨by decide, by decide, { built_inv with }, rfl⟩, by decide⟩

theorem witness_RoundfResult :
    (let s := ops 0xFFFF_FFFF 0xFFFFF 0xFFFFF 0xFFFFF
     s.opb.extractLsb' 20 12 = 0 ∧ s.opc.extractLsb' 20 12 = 0 ∧ s.opd.extractLsb' 20 12 = 0) ∧
    (∀ s ∈ [ops 0 0x100000 0 0, ops 0 0 0x100000 0, ops 0 0 0 0x100000],
      s.opb.extractLsb' 20 12 ≠ 0 ∨ s.opc.extractLsb' 20 12 ≠ 0 ∨ s.opd.extractLsb' 20 12 ≠ 0) := by decide

/-- LEVEL = NMAX, the most negative LEVEL, LEVEL = NMAX+1, and KEYLEN one short. -/
theorem witness_KeysetLoadsSchedule :
    (let s := { idle with level := 2, keylen := 16 }
     s.level.toInt ≤ s.params.nmax ∧ s.keylen.toNat = 8 * sizeForLevel s.level.toInt ∧
     roundsForLevel s.level.toInt = 32) ∧
    (let s := { idle with level := 0x8000_0000, keylen := 8 }
     s.level.toInt ≤ s.params.nmax ∧ s.keylen.toNat = 8 * sizeForLevel s.level.toInt ∧
     roundsForLevel s.level.toInt ≤ 31 ∧ 31 < 16 * s.params.nmax) ∧
    (let s := { idle with level := 3 }
     (s.params.nmax : Int) < s.level.toInt) ∧
    (let s := { idle with level := 2, keylen := 15 }
     s.level.toInt ≤ s.params.nmax ∧ s.keylen.toNat ≠ 8 * sizeForLevel s.level.toInt) := by decide

/-- LEN = 8 and LEN = BUF_BYTES are valid; KEYVALID = 0; LEN = 0, 7 and 40 are not. The same states serve DECRYPT. -/
theorem witness_EncryptTransformsBuffer :
    (∀ n ∈ [8, 32],
      let s := { idle with keyvalid := true, len := BitVec.ofNat 32 n }
      s.keyvalid = true ∧ s.len.toNat ≠ 0 ∧ s.len.toNat % 8 = 0 ∧ s.len.toNat ≤ s.params.bufBytes) ∧
    idle.keyvalid = false ∧
    (∀ n ∈ [0, 7, 40],
      let s := { idle with keyvalid := true, len := BitVec.ofNat 32 n }
      s.keyvalid = true ∧ (s.len.toNat = 0 ∨ s.len.toNat % 8 ≠ 0 ∨ s.params.bufBytes < s.len.toNat)) := by decide

theorem witness_DecryptTransformsBuffer :
    (∀ n ∈ [8, 32],
      let s := { idle with keyvalid := true, len := BitVec.ofNat 32 n }
      s.keyvalid = true ∧ s.len.toNat ≠ 0 ∧ s.len.toNat % 8 = 0 ∧ s.len.toNat ≤ s.params.bufBytes) ∧
    idle.keyvalid = false ∧
    (∀ n ∈ [0, 7, 40],
      let s := { idle with keyvalid := true, len := BitVec.ofNat 32 n }
      s.keyvalid = true ∧ (s.len.toNat = 0 ∨ s.len.toNat % 8 ≠ 0 ∨ s.params.bufBytes < s.len.toNat)) := by decide

theorem witness_ErrorsChangeOnlyStatus :
    ∃ (s t : State) (w : Word), s.pending = .cmd w ∧ (nextTurn s).1 = .engine ∧ step s = .next t ∧ t.errcode ≠ .ok :=
  ⟨busyWith 0x2, _, 0x2, rfl, rfl, rfl, by decide⟩

/-- For every command, a state it answers a next state from. -/
theorem witness_CommandsReportOnlyTheirErrors : ∀ i : Instr, ∃ s t : State, exec i s = .next t := by
  intro i
  cases i <;> exact ⟨idle, _, rfl⟩

theorem witness_CommandFrames : ∀ i : Instr, ∃ s t : State, exec i s = .next t := by
  intro i
  cases i <;> exact ⟨idle, _, rfl⟩

/-- The lowest and the highest modulus. -/
theorem witness_GfMultIsPolynomialProduct : ∀ m ∈ [(256 : Modulus), 511], m.getLsbD 8 = true := by decide

theorem witness_GfExp7IsSeventhPower : ∀ m ∈ [(256 : Modulus), 511], m.getLsbD 8 = true := by decide

theorem witness_Perm32MovesBits : ∀ n ∈ [0, 31], n < 32 := by decide

theorem witness_SboxOutputsAreDisjoint : built.Inv ∧ built.ready = true ∧ (0 : Fin 4) ≠ 3 := ⟨built_inv, rfl, by decide⟩

theorem witness_SboxRowsAreInjective :
    ∃ (k : Fin 4) (i j : SboxIndex), i.getLsbD 9 = j.getLsbD 9 ∧ i.getLsbD 0 = j.getLsbD 0 ∧ sboxEntry k i = sboxEntry k j :=
  ⟨3, 1023, 1023, rfl, rfl, rfl⟩

theorem witness_RoundInputsBitByBit : ∀ n ∈ [0, 9, 10, 17, 18, 19], n < 20 := by decide

theorem witness_ScheduleEntryBits : (∀ c ∈ [0, 2], ∀ n ∈ [0, 19], c < 3 ∧ n < 20) ∧ ∀ n ∈ [0, 1, 15], n < 16 := by decide

theorem witness_ScheduleEntriesCovered : (1 ≤ 1 ∧ 0 < 1 ∧ 7 < 8) ∧ (1 ≤ 128 ∧ 127 < 128 ∧ 7 < 8) := by decide

theorem witness_BlockFollowsRounds : 8 % 2 = 0 ∧ 2 * 0 + 1 < 8 ∧ 2 * 3 + 1 < 8 := by decide

/-- LEN = 8 and LEN = BUF_BYTES, with a schedule loaded, in states that meet the invariant. -/
theorem witness_DecryptUndoesEncrypt :
    2048 % 2 = 0 ∧
    ∀ n ∈ [(8 : Word), 32],
      (keyedState n).Inv ∧ (keyedState n).keyvalid = true ∧ (keyedState n).len.toNat ≠ 0 ∧
      (keyedState n).len.toNat % 8 = 0 ∧ (keyedState n).len.toNat ≤ (keyedState n).params.bufBytes :=
  ⟨by decide, fun n h => ⟨keyedState_inv n, rfl, by
    simp only [List.mem_cons, List.not_mem_nil, or_false] at h
    rcases h with rfl | rfl <;> exact ⟨by decide, by decide, by decide⟩⟩⟩

/-- Two states that differ in what ENCRYPT does not read. -/
theorem witness_CipherDependsOnItsInputs :
    ∃ (s s' t t' : State), s ≠ s' ∧ s.len = s'.len ∧ s.rounds = s'.rounds ∧
      (∀ r, r < s.rounds.toNat → s.schedAt r = s'.schedAt r) ∧ (∀ k j, s.sboxAt k j = s'.sboxAt k j) ∧
      (∀ a, a < s.len.toNat → s.bufByte a = s'.bufByte a) ∧
      exec .encrypt s = .next t ∧ exec .encrypt s' = .next t' ∧ t.errcode = .ok ∧ t'.errcode = .ok :=
  ⟨keyedState 8, { keyedState 8 with size := 2 }, _, _, fun h => absurd (congrArg State.size h) (by decide), rfl, rfl,
    fun _ _ => rfl, fun _ _ => rfl, fun _ _ => rfl, rfl, rfl, rfl, rfl⟩

/-- A width, an alignment, and the first and last offset of every reserved range (NMAX = 2, BUF_BYTES = 32). -/
theorem witness_UnsupportedAccessSetsBuserr :
    (2 ≠ 4) ∧ (0x00D : Offset).extractLsb' 0 2 ≠ 0 ∧
    ∀ o ∈ [0x02C, 0x040, 0x3FC, 0x410, 0x7FC, 0x800, 0xFFC, 0x1020, 0x1FFC], reservedOffset Config.params o := by
  refine ⟨by decide, by decide, ?_⟩
  unfold reservedOffset
  decide

theorem witness_ReadOnlyAndWriteOnlyLocations :
    3 < 2 * State.reset.params.nmax ∧
    (let v : Word := 0x62
     let v' : Word := 0xFFFF_FFFF
     v.getLsbD 1 = v'.getLsbD 1 ∧ v.getLsbD 5 = v'.getLsbD 5 ∧ v.getLsbD 6 = v'.getLsbD 6) ∧
    (let v : Word := 1
     let v' : Word := 0xFFFF_FFFF
     v.getLsbD 0 = v'.getLsbD 0) := by decide

theorem witness_WritesWhileBusyAreDropped :
    State.reset.busy = true ∧ (busyWith 0x1).busy = true ∧ 3 < 2 * State.reset.params.nmax ∧
    7 < State.reset.params.bufBytes / 4 := by decide

theorem witness_ReadsWhileBusy :
    State.reset.busy = true ∧ (busyWith 0x1).busy = true ∧ 3 < 2 * State.reset.params.nmax ∧
    7 < State.reset.params.bufBytes / 4 := by decide

theorem witness_RegistersReadBack : built.busy = false := rfl

theorem witness_WindowWordsAreBigEndian :
    loaded.busy = false ∧ keyWf loaded.params loaded.key = true ∧ 3 < 2 * loaded.params.nmax ∧
    7 < loaded.params.bufBytes / 4 := by decide

theorem witness_CommandAcceptance :
    built.pending = .idle ∧ (nextTurn State.reset).1 = .engine ∧
    (let s := { idle with turns := [.engine] }
     (nextTurn s).1 = .engine ∧ s.pending = .idle) ∧ ∃ t, step State.reset = .next t :=
  ⟨rfl, rfl, ⟨rfl, rfl⟩, _, rfl⟩

/-- A register, and the last word of each window. -/
theorem witness_NoLocationIsAliased :
    accessLoc Config.params 0x03C 4 = some .opd ∧ accessLoc Config.params 0x40C 4 = some (.keyWord 3) ∧
    accessLoc Config.params 0x101C 4 = some (.bufWord 7) := by decide

/-- A host whose next line is a write, in the idle and in the busy block. -/
def writer (off : Offset) (v : Word) : State := { idle with program := [.access (.write off 4 v)] }

def busyWriter (off : Offset) (v : Word) : State := { writer off v with pending := .cmd 0x2, turns := [.host] }

/-- Host turns: an acceptance, a W1C of each flag, a dropped write, the two kinds of unsupported write, an unsupported read. -/
theorem witness_FlagsChangeOnlyByTheirEvents_host :
    ((nextTurn (writer 0x008 1)).1 = .host ∧ (writer 0x008 1).accepts 1 ∧ ∃ t, step (writer 0x008 1) = .next t) ∧
    ((nextTurn (writer 0x00C 0x62)).1 = .host ∧ ∀ n ∈ [1, 5, 6], (writer 0x00C 0x62).clearsBit n) ∧
    ((nextTurn (busyWriter 0x101C 5)).1 = .host ∧ (busyWriter 0x101C 5).busy = true ∧
      ∃ l v, Loc.droppedWhileBusy l ∧ (busyWriter 0x101C 5).writesTo l v) ∧
    (writer 0x020 1).unsupported ∧ (writer 0x02C 1).unsupported ∧
    State.unsupported { idle with program := [.access (.read 0x1001 4)] } ∧
    ((nextTurn { idle with program := [.wait] }).1 = .host ∧ ¬ ∃ w, State.accepts { idle with program := [.wait] } w) :=
  ⟨⟨rfl, ⟨rfl, _, _, rfl, rfl⟩, _, rfl⟩,
    ⟨rfl, fun n h => ⟨0x62, ⟨_, _, rfl, rfl⟩, by simp at h; rcases h with rfl | rfl | rfl <;> decide⟩⟩,
    ⟨rfl, rfl, .bufWord 7, 5, .inr (.inr ⟨7, rfl⟩), _, _, rfl, rfl⟩,
    .inr (.inr ⟨.size, 1, by decide, _, _, rfl, rfl⟩), .inr (.inl ⟨_, _, _, rfl, rfl⟩), .inl ⟨_, _, rfl, rfl⟩,
    rfl, fun ⟨_, _, _, _, h, _⟩ => by cases h⟩

/-- Engine turns: INIT, a KEYSET that sets KEYVALID, a ZEROIZE that clears it; and the reset input. -/
theorem witness_FlagsChangeOnlyByTheirEvents_engine :
    (∃ t, step State.reset = .next t ∧ (nextTurn State.reset).1 = .engine ∧ State.reset.pending = .init) ∧
    (let s := { busyWith 0x1 with keylen := 8 }
     s.pending = .cmd 0x1 ∧ (nextTurn s).1 = .engine ∧ ∃ t, step s = .next t ∧ t.keyvalid ≠ s.keyvalid) ∧
    (let s := { busyWith 0x4 with keyvalid := true }
     s.pending = .cmd 0x4 ∧ (nextTurn s).1 = .engine ∧ ∃ t, step s = .next t ∧ t.keyvalid ≠ s.keyvalid) ∧
    (let s := { loaded with turns := [.reset] }
     (nextTurn s).1 = .reset ∧ ∃ t, step s = .next t) :=
  ⟨⟨_, rfl, rfl, rfl⟩, ⟨rfl, rfl, _, rfl, by decide⟩, ⟨rfl, rfl, _, rfl, by decide⟩, rfl, _, rfl⟩

theorem witness_OperandsAreStableWhileBusy :
    ∃ s t : State, s.busy = true ∧ (nextTurn s).1 = .host ∧ step s = .next t :=
  ⟨{ busyWith 0x2 with turns := [.host], program := [.access (.write 0x01C 4 16)] }, _, rfl, rfl, rfl⟩

theorem witness_SboxIsWrittenByInitOnly :
    ∃ s t : State, step s = .next t ∧ (nextTurn s).1 ≠ .reset ∧ s.pending ≠ .init :=
  ⟨busyWith 0x4, _, rfl, by decide, by decide⟩

/-- Two states that differ in their secrets, at a host access and at KEYSET. -/
theorem witness_KeysAreNotObservable :
    (let s := { idle with program := [.access (.read 0x400 4)] }
     let s' := { s with key := k1Key }
     s.publicView = s'.publicView ∧ s.key ≠ s'.key ∧ (nextTurn s).1 = .host ∧ ∃ t, step s = .next t) ∧
    (let s := { busyWith 0x1 with keylen := 8 }
     let s' := { s with key := k1Key }
     s.publicView = s'.publicView ∧ s.key ≠ s'.key ∧
     ((nextTurn s).1 = .engine → ∀ w, s.pending = .cmd w → decode w ≠ some .encrypt ∧ decode w ≠ some .decrypt) ∧
     ∃ t, step s = .next t) :=
  ⟨⟨rfl, by decide, rfl, _, rfl⟩, rfl, by decide,
    fun _ w h => by obtain rfl := Pending.cmd.inj h; decide, _, rfl⟩

theorem witness_WaitEndsWithinTwoSteps :
    (let s := { busyWith 0x2 with program := [.wait] }
     s.turns = [] ∧ s.program = [.wait]) ∧
    (let s := { idle with program := [.wait] }
     s.turns = [] ∧ s.program = [.wait]) := by decide

end Sys2Proof.Tests
end

namespace Sys2Proof.Machine

/-! The turns: who moves says what a step is (R73). -/

section Turns

variable {s : State}

theorem step_of_host (ht : (nextTurn s).1 = .host) : step s = .next (hostStep s.taken) := by
  simp only [step, ht]
  rfl

theorem step_of_engine (ht : (nextTurn s).1 = .engine) : step s = engineStep s.taken := by
  simp only [step, ht]
  rfl

theorem step_of_reset (ht : (nextTurn s).1 = .reset) : step s = .next s.taken.resetInput := by
  simp only [step, ht]
  rfl

end Turns

/-! The invariant (O9, O10): reset has it, and each update of a transition keeps it. -/

section Invariant

/-- A SCHED of zero entries reads zero everywhere, past its end too. -/
theorem State.schedAt_of_replicate {s : State} {n : Nat} (h : s.sched = List.replicate n SubKey.zero) (r : Nat) :
    s.schedAt r = SubKey.zero := by
  rw [State.schedAt, h, List.getD_eq_getElem?_getD, List.getElem?_getD_replicate_default_eq]

/-- Reset (R44) meets the invariant, whatever the parameters. -/
theorem State.resetWith_inv (p : Params) : (State.resetWith p).Inv where
  ready_iff := by simp [State.resetWith]
  sbox_eq := rfl
  key_wf := Memory.wf_nil _ _
  buf_wf := Memory.wf_nil _ _
  sched_length := List.length_replicate
  sched_zero := fun r _ => State.schedAt_of_replicate rfl r
  loaded := by simp [State.resetWith]
  unloaded := fun _ => ⟨rfl, rfl⟩
  busy_clear := fun _ => ⟨rfl, rfl, rfl⟩
  err_iff := by simp [State.resetWith]
  lastop_eq := by simp [State.resetWith]

variable {s : State}

/-- The invariant speaks of no other field than those kept here. -/
theorem State.Inv.frame {t : State} (hs : s.Inv)
    (h : t = { s with
      ovr := t.ovr, buserr := t.buserr, irqen := t.irqen, level := t.level, keylen := t.keylen, len := t.len,
      result := t.result, opa := t.opa, opb := t.opb, opc := t.opc, opd := t.opd,
      epoch := t.epoch, draws := t.draws, program := t.program, observed := t.observed, turns := t.turns }) :
    t.Inv := by
  rw [h]
  exact ⟨hs.ready_iff, hs.sbox_eq, hs.key_wf, hs.buf_wf, hs.sched_length, hs.sched_zero, hs.loaded, hs.unloaded,
    hs.busy_clear, hs.err_iff, hs.lastop_eq⟩

/-- The reset input leaves the reset state of the same parameters, but for the model's own fields (R290). -/
theorem State.resetInput_inv (s : State) : s.resetInput.Inv := (State.resetWith_inv s.params).frame rfl

/-- READY is set in every state that is not waiting for INIT (R38). -/
theorem State.Inv.ready_of_pending_ne_init (hs : s.Inv) (h : s.pending ≠ .init) : s.ready = true := by
  rw [← Bool.not_eq_false, hs.ready_iff]
  exact h

/-- A write of STATUS only clears flags, so DONE stays clear while busy. -/
theorem State.Inv.writeStatus (hs : s.Inv) (v : Word) : (s.writeStatus v).Inv :=
  { hs with
    busy_clear := fun hb => by
      obtain ⟨hd, he, hc⟩ := hs.busy_clear hb
      exact ⟨by simp [hd], he, hc⟩ }

/-- An acceptance (R39) finds INIT done, clears the flags of a completion and records the opcode. -/
theorem State.Inv.accept (hs : s.Inv) (hb : s.busy = false) (w : Word) : (s.accept w).Inv :=
  { hs with
    ready_iff := by
      have hr := hs.ready_of_pending_ne_init (by simp [State.busy_eq_false.mp hb])
      simp [hr]
    busy_clear := fun _ => ⟨rfl, rfl, rfl⟩
    err_iff := by simp
    lastop_eq := by
      rintro w' ⟨⟩
      rfl }

/-- A completion (R256) ends the busy time of a command, and sets ERR with an error code. -/
theorem State.Inv.complete (hs : s.Inv) (hp : s.pending ≠ .init) (c : ErrCode) : (s.complete c).Inv :=
  { hs with
    ready_iff := by simp [hs.ready_of_pending_ne_init hp]
    busy_clear := by simp [State.busy]
    err_iff := by simp
    lastop_eq := by simp }

theorem State.Inv.setResult (hs : s.Inv) (v : Word) : (s.setResult v).Inv := hs.frame rfl

theorem State.Inv.initStep (hs : s.Inv) : s.initStep.Inv :=
  { hs with
    ready_iff := by simp
    sbox_eq := rfl
    busy_clear := by simp [State.busy]
    lastop_eq := by simp }

/-- What LEVEL selects is a size within NMAX and the rounds that R30 has for it. -/
theorem levelParams_bounds {p : Params} {lvl : Int} (h : lvl ≤ p.nmax) :
    1 ≤ (levelParams lvl).1 ∧ (levelParams lvl).1 ≤ p.nmax ∧
      (((levelParams lvl).1 = 1 ∧ (levelParams lvl).2 = 8) ∨ (levelParams lvl).2 = 16 * (levelParams lvl).1) := by
  have := p.one_le_nmax
  rw [levelParams_fst, levelParams_snd]
  split <;> omega

/-- KEYSET's success (R182) loads a schedule of the size that LEVEL selects, and no entry above it (R183). -/
theorem State.Inv.loadKey (hs : s.Inv) (hl : s.level.toInt ≤ s.params.nmax) :
    (s.loadKey (levelParams s.level.toInt).1 (levelParams s.level.toInt).2).Inv := by
  obtain ⟨hpos, hle, hrounds⟩ := levelParams_bounds hl
  have hmax := s.params.nmax_le
  generalize (levelParams s.level.toInt).1 = n at *
  generalize (levelParams s.level.toInt).2 = r at *
  have hn : (BitVec.ofNat 32 n).toNat = n := by rw [BitVec.toNat_ofNat]; omega
  have hr : (BitVec.ofNat 32 r).toNat = r := by rw [BitVec.toNat_ofNat]; omega
  exact { hs with
    sched_length := loadedSched_length _ _ _
    sched_zero := fun i hi => by
      rw [State.loadKey_rounds, hr] at hi
      rw [State.schedAt, State.loadKey_sched, loadedSched_getD, if_neg (by omega)]
    loaded := fun _ => by
      simp only [State.loadKey_size, State.loadKey_rounds, State.loadKey_params, hn, hr]
      exact ⟨hpos, hle, hrounds⟩
    unloaded := by simp }

/-- ZEROIZE (R184) leaves no key, no schedule, and SIZE and ROUNDS at 0. -/
theorem State.Inv.eraseKey (hs : s.Inv) : s.eraseKey.Inv :=
  { hs with
    key_wf := Memory.wf_nil _ _
    sched_length := List.length_replicate
    sched_zero := fun r _ => State.schedAt_of_replicate rfl r
    loaded := by simp
    unloaded := fun _ => ⟨rfl, rfl⟩ }

/-- KEY may hold any list in canonical form. -/
theorem State.Inv.withKey (hs : s.Inv) {K : List Host.Cell} (h : keyWf s.params K = true) : State.Inv { s with key := K } :=
  { hs with key_wf := h }

/-- BUF may hold any list in canonical form. -/
theorem State.Inv.withBuf (hs : s.Inv) {B : List Host.Cell} (h : bufWf s.params B = true) : State.Inv { s with buf := B } :=
  { hs with buf_wf := h }

/-- A validated length is one that Transform (R223) stays within BUF for. -/
theorem State.Inv.transform (hs : s.Inv) (hv : s.validate = .ok) (fn : Word × Word → Word × Word) :
    (s.transform fn).Inv := by
  obtain ⟨-, -, -, hlen⟩ := State.validate_eq_ok.mp hv
  rw [s.transform_eq fn]
  exact hs.withBuf (transformBlocks_wf fn hs.buf_wf (by omega))

/-! The transitions: the host's accesses, the commands, and the turns made of them. -/

theorem State.Inv.hostRead (hs : s.Inv) (off : Offset) (size : Nat) : (s.hostRead off size).2.Inv := by
  obtain h | h | ⟨-, h⟩ := s.hostRead_state off size <;> rw [h]
  · exact hs
  · exact hs.frame rfl
  · exact hs.frame rfl

theorem State.Inv.hostWrite (hs : s.Inv) (off : Offset) (size : Nat) (v : Word) : (s.hostWrite off size v).Inv := by
  refine State.hostWrite_ind s off size v (hs.frame rfl) (fun _ => hs.frame rfl) (hs.writeStatus v) (hs.frame rfl)
    (fun hb => hs.accept hb v) ?_ ?_ ?_ ?_ ?_ ?_ ?_ (fun w _ hw => hs.withKey (keyWrite_wf hs.key_wf hw v))
    (fun w _ hw => hs.withBuf (bufWrite_wf hs.buf_wf hw v))
  all_goals exact fun _ => hs.frame rfl

theorem State.Inv.hostStep (hs : s.Inv) : (hostStep s).Inv := by
  obtain ⟨-, h⟩ | ⟨off, size, v, rest, h⟩ | ⟨off, size, v, rest, h⟩ | ⟨v, rest, h | h⟩ := hostStep_cases s <;> rw [h]
  · exact hs
  · exact State.Inv.frame (State.Inv.hostRead (hs.frame rfl) off size) rfl
  · exact State.Inv.hostWrite (hs.frame rfl) off size v
  · exact (hs.hostRead _ _).frame rfl
  · exact (hs.hostRead _ _).frame rfl

theorem State.Inv.exec {i : Instr} {t : State} (hs : s.Inv) (hp : s.pending ≠ .init) (h : exec i s = .next t) : t.Inv := by
  refine exec_ind h (fun c _ => hs.complete hp c) (fun _ => hs.complete hp .ok)
    (fun _ hl _ => (hs.loadKey hl).complete hp .ok) (fun _ => hs.eraseKey.complete hp .ok) ?_ ?_
    (fun v _ => (hs.setResult v).complete hp .ok)
  all_goals
    intro _ hv
    refine (hs.transform hv _).complete ?_ .ok
    rw [State.transform_eq]
    exact hp

theorem State.Inv.engineStep {t : State} (hs : s.Inv) (h : engineStep s = .next t) : t.Inv := by
  obtain ⟨-, rfl⟩ | ⟨-, rfl⟩ | ⟨w, i, hp, -, h⟩ | ⟨w, hp, -, rfl⟩ := engineStep_cases h
  · exact hs
  · exact hs.initStep
  · exact hs.exec (by simp [hp]) h
  · exact hs.complete (by simp [hp]) _

theorem State.Inv.step {t : State} (hs : s.Inv) (h : step s = .next t) : t.Inv := by
  have taken : s.taken.Inv := hs.frame rfl
  obtain ⟨-, rfl⟩ | ⟨-, h⟩ | ⟨-, rfl⟩ := step_cases h
  · exact taken.hostStep
  · exact taken.engineStep h
  · exact s.taken.resetInput_inv

end Invariant

/-- Settles O9: the reset state meets the invariant for all parameters, those of log entry 1 among them. -/
theorem resetMeetsInvariant : Obligations.ResetMeetsInvariant :=
  ⟨State.resetWith_inv, State.resetWith_inv Config.params⟩

/-- Settles O10: each update that a transition is made of keeps the invariant. -/
theorem stepKeepsInvariant : Obligations.StepKeepsInvariant := fun _ _ hs h => hs.step h

/-! The registers as the host reads and writes them (O11, O41, O42). -/

section Registers

/-- The lowest bit of a word whose last field is one bit, and the bits above it. -/
theorem getLsbD_append_bit {w : Nat} (x : BitVec w) (b : BitVec 1) (n : Nat) :
    (x ++ b).getLsbD n = if n = 0 then b.getLsbD 0 else x.getLsbD (n - 1) := by
  rw [BitVec.getLsbD_append]
  cases n <;> simp

/-- STATUS bit by bit (R23): the flags, and above them ERRCODE, LASTOP and the reserved bits. -/
theorem State.statusWord_getLsbD (s : State) (n : Nat) :
    s.statusWord.getLsbD n =
      match n with
      | 0 => s.busy
      | 1 => s.done
      | 2 => s.err
      | 3 => s.keyvalid
      | 4 => s.ready
      | 5 => s.ovr
      | 6 => s.buserr
      | 7 => false
      | n + 8 => ((0 : BitVec 16) ++ s.lastop ++ s.errcode.code).getLsbD n := by
  unfold State.statusWord
  iterate 8 rw [getLsbD_append_bit]
  rcases n with _ | _ | _ | _ | _ | _ | _ | _ | n <;> simp

/-- A field of STATUS above its flags (R23). -/
theorem State.statusWord_extractLsb' (s : State) (k len : Nat) :
    s.statusWord.extractLsb' (8 + k) len = ((0 : BitVec 16) ++ s.lastop ++ s.errcode.code).extractLsb' k len := by
  apply BitVec.eq_of_getLsbD_eq
  intro i _
  rw [BitVec.getLsbD_extractLsb', BitVec.getLsbD_extractLsb', Nat.add_assoc, Nat.add_comm, s.statusWord_getLsbD]

theorem State.statusWord_errcode (s : State) : s.statusWord.extractLsb' 8 4 = s.errcode.code := by
  rw [s.statusWord_extractLsb' 0, BitVec.extractLsb'_append_eq_right]

theorem State.statusWord_lastop (s : State) : s.statusWord.extractLsb' 12 4 = s.lastop := by
  rw [s.statusWord_extractLsb' 4, BitVec.extractLsb'_append_eq_of_le (by decide), BitVec.extractLsb'_append_eq_right]

theorem State.statusWord_reserved (s : State) : s.statusWord.extractLsb' 16 16 = 0 := by
  rw [s.statusWord_extractLsb' 8, BitVec.extractLsb'_append_eq_of_le (by decide),
    BitVec.extractLsb'_append_eq_of_le (by decide), BitVec.extractLsb'_eq_self]

/-- STATUS shows nothing of the parameters, so one choice of them gives its reset value for all (R44). -/
theorem State.resetInput_statusWord (s : State) : s.resetInput.statusWord = 1 :=
  show State.reset.statusWord = 1 by decide

/-- IRQEN reads as DONE_IE alone (R25). -/
theorem State.irqenWord_eq (s : State) : s.irqenWord = if s.irqen then 1 else 0 := by
  unfold State.irqenWord
  cases s.irqen <;> rfl

/-- Both parameters fit in their half of PARAM (R24). -/
theorem State.paramWord_toNat (s : State) : s.paramWord.toNat = 65536 * s.params.bufBytes + s.params.nmax := by
  have hb := s.params.bufBytes_le
  have hn := s.params.nmax_le
  rw [State.paramWord, BitVec.toNat_append, BitVec.toNat_ofNat, BitVec.toNat_ofNat, Nat.mod_eq_of_lt (by omega),
    Nat.mod_eq_of_lt (by omega), ← Nat.shiftLeft_add_eq_or_of_lt (by omega), Nat.shiftLeft_eq]
  omega

variable {s : State}

theorem State.unlessBusy_of_busy (h : s.busy = true) (t : State) : s.unlessBusy t = s.overrun := if_pos h

theorem State.unlessBusy_of_idle (h : s.busy = false) (t : State) : s.unlessBusy t = t :=
  if_neg (Bool.eq_false_iff.mp h)

theorem State.readResult_of_busy (h : s.busy = true) (v : Word) : s.readResult v = s.draw := if_pos h

theorem State.readResult_of_idle (h : s.busy = false) (v : Word) : s.readResult v = (v, s) :=
  if_neg (Bool.eq_false_iff.mp h)

/-- What IRQEN stores of a word, in the words of R25. -/
theorem ite_getLsbD_zero (v : Word) : (if v.getLsbD 0 then 1 else 0) = v &&& 1 := by
  rw [BitVec.ofNat_eq_ofNat, BitVec.ofNat_eq_ofNat, BitVec.and_one_eq_setWidth_ofBool_getLsbD]
  cases v.getLsbD 0 <;> rfl

end Registers

/-- Settles O11: the reset input's transition, and what each location then holds. -/
theorem resetGivesResetValues : Obligations.ResetGivesResetValues := by
  intro s h
  refine ⟨_, step_of_reset h, rfl, rfl, State.paramWord_toNat _, s.taken.resetInput_statusWord, State.irqenWord_eq _, rfl,
    rfl, rfl, rfl, rfl, rfl, rfl, rfl, rfl, rfl, rfl, fun _ => rfl, List.length_replicate,
    State.schedAt_of_replicate rfl, rfl, rfl, rfl, fun _ => rfl, rfl⟩

/-- Settles O41: STATUS bit by bit, and its write as R23 puts it. -/
theorem statusFieldsAndWrites : Obligations.StatusFieldsAndWrites := by
  have cleared (a b : Bool) : (a && !b) = if b then false else a := by cases b <;> simp
  refine ⟨fun s => ⟨s.hostRead_status, ?_, s.statusWord_getLsbD 1, s.statusWord_getLsbD 2, s.statusWord_getLsbD 3,
    s.statusWord_getLsbD 4, s.statusWord_getLsbD 5, s.statusWord_getLsbD 6, s.statusWord_getLsbD 7,
    s.statusWord_errcode, s.statusWord_lastop, s.statusWord_reserved⟩, fun s v => ?_, by decide, by decide⟩
  · rw [s.statusWord_busy, State.busy_eq_true]
  · show s.writeStatus v = _
    simp only [State.writeStatus, cleared]

/-- Settles O42: while idle no write is dropped and no read is a draw. -/
theorem registersReadBack : Obligations.RegistersReadBack := by
  intro s v hb
  have stored (t : State) : s.unlessBusy t = t := State.unlessBusy_of_idle hb t
  have held (v : Word) : s.readResult v = (v, s) := State.readResult_of_idle hb v
  refine ⟨stored _, stored _, stored _, stored _, stored _, stored _, stored _, rfl, ?_, ?_, rfl, rfl,
    s.paramWord_toNat, rfl, s.irqenWord_eq, rfl, rfl, rfl, rfl, rfl, rfl, rfl, held _, held _, held _⟩
  · have readBack {off : Offset} {t : State} (hw : s.hostWrite off 4 v = t) (hr : (t.hostRead off 4).1 = v) :
        (State.hostRead (s.hostWrite off 4 v) off 4).1 = v := hw ▸ hr
    simp only [List.forall_mem_cons, List.not_mem_nil, false_implies, implies_true, and_true]
    exact ⟨readBack (stored _) rfl, readBack (stored _) rfl, readBack (stored _) rfl, readBack (stored _) rfl,
      readBack (stored _) rfl, readBack (stored _) rfl, readBack (stored _) rfl⟩
  · exact (s.writeIrqen v).irqenWord_eq.trans (ite_getLsbD_zero v)

/-! The offsets (O45). -/

section Offsets

theorem regAt_offset {o : Nat} {l : Loc} (h : regAt o = some l) : l.offset.toNat = o := by
  unfold regAt at h
  split at h <;> cases h <;> rfl

/-- A location is reached at its own offset (R20, R62), which the windows' bounds keep within 13 bits. -/
theorem locAt_offset {p : Params} {o : Nat} {l : Loc} (ho : o % 4 = 0) (h : locAt p o = some l) : l.offset.toNat = o := by
  have hn := p.nmax_le
  have hb := p.bufBytes_le
  unfold locAt at h
  split_ifs at h
  · exact regAt_offset h
  all_goals
    obtain rfl := Option.some.inj h
    rw [Loc.offset, BitVec.toNat_ofNat]
    omega

theorem accessLoc_offset {p : Params} {off : Offset} {size : Nat} {l : Loc} (h : accessLoc p off size = some l) :
    size = 4 ∧ off = l.offset := by
  unfold accessLoc at h
  split_ifs at h with hs
  exact ⟨hs.1, (BitVec.eq_of_toNat_eq (locAt_offset hs.2 h)).symm⟩

end Offsets

/-- Settles O45: an access that reaches a location is at its offset, and the windows end where their memories do. -/
theorem noLocationIsAliased : Obligations.NoLocationIsAliased := by
  intro p off size l h
  obtain ⟨hs, ho⟩ := accessLoc_offset h
  refine ⟨hs, ho, ?_, ?_⟩
  · rintro w rfl
    have := accessLoc_key h
    omega
  · rintro w rfl
    have := accessLoc_buf h
    omega

/-! What a command and the engine's turn write (O24, O44). -/

section Engine

variable {i : Instr} {s t : State}

/-- The writes of each command as updates of the state: an error or NOP completes only. -/
theorem exec_writes (h : exec i s = .next t) :
    (∃ c, t = s.complete c) ∨
    (i = .keyset ∧ ∃ n r, t = (s.loadKey n r).complete .ok) ∨
    (i = .zeroize ∧ t = s.eraseKey.complete .ok) ∨
    (i ∈ [Instr.encrypt, .decrypt] ∧ ∃ B, t = State.complete { s with buf := B } .ok) ∨
    (i ∈ [Instr.gfmul, .gfexp7, .perm32, .sboxrd, .roundf] ∧ ∃ v, t = (s.setResult v).complete .ok) := by
  obtain ⟨c, -, rfl⟩ | ⟨-, rfl⟩ | ⟨hi, -, -, rfl⟩ | ⟨hi, rfl⟩ | ⟨hi, -, fn, rfl⟩ | h := exec_cases h
  · exact .inl ⟨c, rfl⟩
  · exact .inl ⟨.ok, rfl⟩
  · exact .inr (.inl ⟨hi, _, _, rfl⟩)
  · exact .inr (.inr (.inl ⟨hi, rfl⟩))
  · exact .inr (.inr (.inr (.inl ⟨hi, (s.transform fn).buf, by rw [← State.transform_eq]⟩)))
  · exact .inr (.inr (.inr (.inr h)))

/-- Every command ends the busy time with DONE, sets ERR with an error code, and writes no more than KEY, BUF, RESULT and the
schedule (R42, R43, R256). -/
theorem exec_frame (h : exec i s = .next t) :
    t = { s with
      pending := .idle, done := true, err := t.errcode != .ok, errcode := t.errcode, keyvalid := t.keyvalid,
      size := t.size, rounds := t.rounds, result := t.result, key := t.key, buf := t.buf, sched := t.sched } := by
  obtain ⟨c, rfl⟩ | ⟨-, n, r, rfl⟩ | ⟨-, rfl⟩ | ⟨-, B, rfl⟩ | ⟨-, v, rfl⟩ := exec_writes h <;> rfl

/-- The engine's turn by what is pending (R39, R91). -/
theorem engineStep_of_idle (hp : s.pending = .idle) : engineStep s = .next s := by
  rw [engineStep, hp]

theorem engineStep_of_init (hp : s.pending = .init) : engineStep s = .next s.initStep := by
  rw [engineStep, hp]

theorem engineStep_of_cmd {w : Word} {i : Instr} (hp : s.pending = .cmd w) (hd : decode w = some i) :
    engineStep s = exec i s := by
  rw [engineStep, hp]
  simp only [runCommand, hd]

/-- An illegal word (R94). -/
theorem engineStep_of_illegal {w : Word} (hp : s.pending = .cmd w) (hd : decode w = none) :
    engineStep s = .next (s.complete .illegalCmd) := by
  rw [engineStep, hp]
  simp only [runCommand, hd]

/-- The engine's turn ends with PENDING = NONE (R39). -/
theorem engineStep_pending (h : engineStep s = .next t) : t.pending = .idle := by
  obtain ⟨hp, rfl⟩ | ⟨-, rfl⟩ | ⟨w, i, -, -, h⟩ | ⟨w, -, -, rfl⟩ := engineStep_cases h
  · exact hp
  · rfl
  · rw [exec_frame h]
  · rfl

end Engine

/-- Settles O24: the frame of every command, and of each memory and register the commands that write it. -/
theorem commandFrames : Obligations.CommandFrames := by
  intro i s t h
  refine ⟨?_, ?_⟩
  · rw [exec_frame h]
    simp
  · obtain ⟨c, rfl⟩ | ⟨rfl, n, r, rfl⟩ | ⟨rfl, rfl⟩ | ⟨hi, B, rfl⟩ | ⟨hi, v, rfl⟩ := exec_writes h
    · simp
    · simp
    · simp
    · simp [hi]
    · simp [hi]

/-- Settles O44: an idle block accepts the word, and every way the engine's turn goes ends idle. -/
theorem commandAcceptance : Obligations.CommandAcceptance := by
  refine ⟨fun s => State.busy_eq_true, fun s w hp => State.unlessBusy_of_idle (State.busy_eq_false.mpr hp) _,
    fun s t ht h => ?_, fun _ => rfl⟩
  rw [step_of_engine ht] at h
  refine ⟨engineStep_pending h, fun hp => ?_⟩
  rw [engineStep_of_idle (s := s.taken) hp] at h
  exact (Host.Outcome.next.inj h).symm

/-! The host's turn and the status flags (O47, O49). -/

section HostTurn

/-- The registers a write to which sets BUSERR (R66). -/
abbrev Loc.readOnly (l : Loc) : Prop := l ∈ [Loc.id, .param, .size, .rounds, .result]

variable (s : State)

/-- The host's turn and its access, by the next line of its program (R96, R97). -/
theorem hostStep_of_nil {s : State} (hp : s.program = []) : s.nextAccess = none ∧ hostStep s = s := by
  rw [State.nextAccess, hostStep, hp]
  exact ⟨rfl, rfl⟩

theorem hostStep_of_access {s : State} {a : Access} {rest : List HostOp} (hp : s.program = .access a :: rest) :
    s.nextAccess = some a ∧ hostStep s = State.performAccess { s with program := rest } a := by
  rw [State.nextAccess, hostStep, hp]
  exact ⟨rfl, rfl⟩

theorem hostStep_of_wait {s : State} {rest : List HostOp} (hp : s.program = .wait :: rest) :
    s.nextAccess = some (.read Loc.status.offset 4) ∧ hostStep s = s.waitStep rest := by
  rw [State.nextAccess, hostStep, hp]
  exact ⟨rfl, rfl⟩

/-- The host's turn by its access: none, a read, or a write; beside it only the host's own fields change. -/
theorem hostStep_access_cases :
    (s.nextAccess = none ∧ hostStep s = s) ∨
    (∃ off size p p' o, s.nextAccess = some (.read off size) ∧
      hostStep s = { (State.hostRead { s with program := p } off size).2 with program := p', observed := o }) ∨
    (∃ off size v p, s.nextAccess = some (.write off size v) ∧
      hostStep s = State.hostWrite { s with program := p } off size v) := by
  match hp : s.program with
  | [] => exact .inl (hostStep_of_nil hp)
  | .access (.read off size) :: rest =>
    obtain ⟨ha, hs⟩ := hostStep_of_access hp
    exact .inr (.inl ⟨off, size, rest, _, _, ha, hs⟩)
  | .access (.write off size v) :: rest =>
    obtain ⟨ha, hs⟩ := hostStep_of_access hp
    exact .inr (.inr ⟨off, size, v, rest, ha, hs⟩)
  | .wait :: rest =>
    obtain ⟨ha, hs⟩ := hostStep_of_wait hp
    refine .inr (.inl ⟨Loc.status.offset, 4, s.program, if s.busy then s.program else rest,
      s.observed ++ [s.statusWord], ha, ?_⟩)
    rw [hs, s.waitStep_eq rest, State.hostRead_status]
    cases s.busy <;> rfl

/-- A read that reaches nothing sets BUSERR; any other changes at most the count of draws (R65, R69, R301). -/
theorem State.hostRead_cases (off : Offset) (size : Nat) :
    (accessLoc s.params off size = none ∧ (s.hostRead off size).2 = s.busError) ∨
    (accessLoc s.params off size ≠ none ∧ ∃ d, (s.hostRead off size).2 = { s with draws := d }) := by
  have held (v : Word) : ∃ d, (s.readResult v).2 = { s with draws := d } := by
    cases hb : s.busy
    · exact ⟨s.draws, by rw [State.readResult_of_idle hb]⟩
    · exact ⟨s.draws + 1, by rw [State.readResult_of_busy hb]; rfl⟩
  unfold State.hostRead
  split
  · exact .inl ⟨‹_›, rfl⟩
  · rename_i l hl
    refine .inr ⟨by simp [hl], ?_⟩
    cases l with
    | size | rounds | result | bufWord w => exact held _
    | id | param | cmd | status | irqen | level | keylen | len | opa | opb | opc | opd | keyWord w =>
      exact ⟨s.draws, rfl⟩

/-- `t` differs from `s` at most in what a store writes: an operand register or a word of KEY or BUF (R62, R300). -/
def State.OperandFrame (s t : State) : Prop :=
  t = { s with
    level := t.level, keylen := t.keylen, len := t.len, opa := t.opa, opb := t.opb, opc := t.opc, opd := t.opd,
    key := t.key, buf := t.buf }

/-- What a supported write does, by the kind of its location (R23, R25, R39, R66, R300). -/
theorem State.writeLoc_cases (l : Loc) (v : Word) :
    (l.readOnly ∧ s.writeLoc l v = s.busError) ∨
    (l = .status ∧ s.writeLoc l v = s.writeStatus v) ∨
    (l = .irqen ∧ s.writeLoc l v = s.writeIrqen v) ∨
    (l.droppedWhileBusy ∧ s.busy = true ∧ s.writeLoc l v = s.overrun) ∨
    (l = .cmd ∧ s.busy = false ∧ s.writeLoc l v = s.accept v) ∨
    (l.droppedWhileBusy ∧ l ≠ .cmd ∧ s.busy = false ∧ s.OperandFrame (s.writeLoc l v)) := by
  cases l with
  | id | param | size | rounds | result => exact .inl ⟨by decide, rfl⟩
  | status => exact .inr (.inl ⟨rfl, rfl⟩)
  | irqen => exact .inr (.inr (.inl ⟨rfl, rfl⟩))
  | cmd =>
    cases hb : s.busy
    · exact .inr (.inr (.inr (.inr (.inl ⟨rfl, rfl, State.unlessBusy_of_idle hb _⟩))))
    · exact .inr (.inr (.inr (.inl ⟨by simp [Loc.droppedWhileBusy], rfl, State.unlessBusy_of_busy hb _⟩)))
  | level | keylen | len | opa | opb | opc | opd | keyWord w | bufWord w =>
    cases hb : s.busy
    · refine .inr (.inr (.inr (.inr (.inr ⟨by simp [Loc.droppedWhileBusy], by simp, rfl, ?_⟩))))
      rw [State.writeLoc, State.unlessBusy_of_idle hb]
      rfl
    · exact .inr (.inr (.inr (.inl ⟨by simp [Loc.droppedWhileBusy], rfl, State.unlessBusy_of_busy hb _⟩)))

/-- What the host's turn makes of the flags (R43), in the words of `FlagsChangeOnlyByTheirEvents`. -/
structure State.HostFlags (s t : State) : Prop where
  ready : t.ready = s.ready
  keyvalid : t.keyvalid = s.keyvalid
  busy : t.busy = true ↔ s.busy = true ∨ ∃ w, s.accepts w
  done : t.done = true ↔ s.done = true ∧ ¬ s.clearsBit 1 ∧ ¬ ∃ w, s.accepts w
  ovr : t.ovr = true ↔
    (s.ovr = true ∧ ¬ s.clearsBit 5) ∨ (s.busy = true ∧ ∃ l v, l.droppedWhileBusy ∧ s.writesTo l v)
  buserr : t.buserr = true ↔ (s.buserr = true ∧ ¬ s.clearsBit 6) ∨ s.unsupported
  accepted : ∀ w, s.accepts w → t.err = false ∧ t.errcode = .ok ∧ t.lastop = w.extractLsb' 0 4
  kept : (¬ ∃ w, s.accepts w) → t.err = s.err ∧ t.errcode = s.errcode ∧ t.lastop = s.lastop

variable {s}

/-- An acceptance makes the block busy (R39). -/
@[simp] theorem State.accept_busy (s : State) (w : Word) : (s.accept w).busy = true := rfl

/-- The kinds of location exclude one another. -/
theorem Loc.not_readOnly_of_dropped {l : Loc} (h : l.droppedWhileBusy) : ¬ l.readOnly ∧ l ≠ .status := by
  cases l <;> simp [Loc.droppedWhileBusy] at h ⊢

theorem Loc.not_dropped_of_readOnly {l : Loc} (h : l.readOnly) : ¬ l.droppedWhileBusy ∧ l ≠ .status ∧ l ≠ .cmd := by
  refine ⟨fun hd => (Loc.not_readOnly_of_dropped hd).1 h, ?_, ?_⟩ <;> rintro rfl <;> simp at h

/-- A turn that accepts no command leaves all flags but DONE, OVR and BUSERR. -/
theorem State.hostFlags_of_not_accepted {t : State} (hacc : ∀ w, ¬ s.accepts w)
    (hframe : t = { s with
      done := t.done, ovr := t.ovr, buserr := t.buserr, irqen := t.irqen, level := t.level, keylen := t.keylen,
      len := t.len, opa := t.opa, opb := t.opb, opc := t.opc, opd := t.opd, key := t.key, buf := t.buf,
      draws := t.draws, program := t.program, observed := t.observed })
    (hdone : t.done = true ↔ s.done = true ∧ ¬ s.clearsBit 1)
    (hovr : t.ovr = true ↔
      (s.ovr = true ∧ ¬ s.clearsBit 5) ∨ (s.busy = true ∧ ∃ l v, l.droppedWhileBusy ∧ s.writesTo l v))
    (hbuserr : t.buserr = true ↔ (s.buserr = true ∧ ¬ s.clearsBit 6) ∨ s.unsupported) :
    s.HostFlags t where
  ready := by rw [hframe]
  keyvalid := by rw [hframe]
  busy := by
    have hb : t.busy = s.busy := by
      rw [hframe]
      rfl
    simp [hb, hacc]
  done := by simp [hdone, hacc]
  ovr := hovr
  buserr := hbuserr
  accepted := fun w h => absurd h (hacc w)
  kept := fun _ => by
    rw [hframe]
    exact ⟨rfl, rfl, rfl⟩

/-- An access that writes nowhere can set BUSERR only, which it does where it is unsupported. -/
theorem State.hostFlags_of_no_write (hw : ∀ l v, ¬ s.writesTo l v) {b : Bool}
    (hb : b = true ↔ s.buserr = true ∨ s.unsupported) (d : Nat) (p : List HostOp) (o : List Word) :
    s.HostFlags { s with buserr := b, draws := d, program := p, observed := o } := by
  refine State.hostFlags_of_not_accepted (fun w h => hw _ _ h.2) rfl ?_ ?_ ?_ <;> simp [State.clearsBit, hw, hb]

section Write

variable {off : Offset} {size : Nat} {v : Word} {l : Loc}
    (ha : s.nextAccess = some (.write off size v)) (hl : accessLoc s.params off size = some l)

include ha hl

theorem State.writesTo_iff_of_access (l' : Loc) (v' : Word) : s.writesTo l' v' ↔ l' = l ∧ v' = v := by
  rw [State.writesTo_iff ha, hl, Option.some.injEq, eq_comm (a := l), and_comm]

/-- A write to a location is unsupported exactly when the location is read-only. -/
theorem State.unsupported_iff_readOnly : s.unsupported ↔ l.readOnly := by
  simp [State.unsupported, State.writesTo_iff_of_access ha hl, ha, hl]

/-- A write that reaches a location, by the kind of the location. -/
theorem State.hostFlags_of_write (p : List HostOp) :
    s.HostFlags (State.writeLoc { s with program := p } l v) := by
  have hw := State.writesTo_iff_of_access ha hl
  have hu := State.unsupported_iff_readOnly ha hl
  obtain ⟨hk, h⟩ | ⟨rfl, h⟩ | ⟨rfl, h⟩ | ⟨hk, hb, h⟩ | ⟨rfl, hb, h⟩ | ⟨hk, hc, hb, h⟩ :=
    State.writeLoc_cases { s with program := p } l v <;> rw [h]
  · obtain ⟨h1, h2, h3⟩ := Loc.not_dropped_of_readOnly hk
    refine State.hostFlags_of_not_accepted ?_ rfl ?_ ?_ ?_ <;>
      simp [State.accepts, State.clearsBit, hw, hu, hk, h1, h2.symm, h3.symm]
  · refine State.hostFlags_of_not_accepted ?_ rfl ?_ ?_ ?_ <;>
      simp [State.accepts, State.clearsBit, hw, hu, Loc.droppedWhileBusy]
  · refine State.hostFlags_of_not_accepted ?_ rfl ?_ ?_ ?_ <;>
      simp [State.accepts, State.clearsBit, hw, hu, Loc.droppedWhileBusy]
  · have hb : s.busy = true := hb
    obtain ⟨h1, h2⟩ := Loc.not_readOnly_of_dropped hk
    refine State.hostFlags_of_not_accepted ?_ rfl ?_ ?_ ?_ <;>
      simp [State.accepts, State.clearsBit, hw, hu, hb, hk, h1, h2.symm]
  · have hb : s.busy = false := hb
    constructor <;> simp [State.accepts, State.clearsBit, hw, hu, hb, opField]
  · have hb : s.busy = false := hb
    obtain ⟨h1, h2⟩ := Loc.not_readOnly_of_dropped hk
    refine State.hostFlags_of_not_accepted ?_ rfl ?_ ?_ ?_ <;>
      simp [State.accepts, State.clearsBit, hw, hu, hb, hc.symm, h1, h2.symm]

end Write

/-- The host's turn, by its access and whether that reaches a location. -/
theorem hostStep_hostFlags (s : State) : s.HostFlags (hostStep s) := by
  obtain ⟨ha, h⟩ | ⟨off, size, p, p', o, ha, h⟩ | ⟨off, size, v, p, ha, h⟩ := hostStep_access_cases s <;> rw [h]
  · have hw := State.not_writesTo (s := s) (by simp [ha])
    have hu : ¬ s.unsupported := by simp [State.unsupported, ha, hw]
    exact State.hostFlags_of_no_write hw (by simp [hu]) _ _ _
  · have hw := State.not_writesTo (s := s) (by simp [ha])
    obtain ⟨hl, hr⟩ | ⟨hl, d, hr⟩ := State.hostRead_cases { s with program := p } off size <;> rw [hr]
    · have hu : s.unsupported := .inl ⟨off, size, ha, hl⟩
      exact State.hostFlags_of_no_write hw (by simp [hu]) _ _ _
    · have hu : ¬ s.unsupported := by simpa [State.unsupported, ha, hw] using hl
      exact State.hostFlags_of_no_write hw (by simp [hu]) _ _ _
  · cases hl : accessLoc s.params off size with
    | none =>
      have hw (l : Loc) (v' : Word) : ¬ s.writesTo l v' := by simp [State.writesTo_iff ha, hl]
      have hu : s.unsupported := .inr (.inl ⟨off, size, v, ha, hl⟩)
      rw [State.hostWrite, hl]
      exact State.hostFlags_of_no_write hw (by simp [hu]) _ _ _
    | some l =>
      rw [State.hostWrite, hl]
      exact State.hostFlags_of_write ha hl p

/-- `t` differs from `s` at most in what a host's turn can write: the parameters, SIZE, ROUNDS, RESULT, KEYVALID, READY, SBOX,
SCHED and the count of resets are as before (R42, R43). -/
def State.HostFrame (s t : State) : Prop :=
  t = { s with
    pending := t.pending, done := t.done, err := t.err, errcode := t.errcode, ovr := t.ovr, buserr := t.buserr,
    lastop := t.lastop, irqen := t.irqen, level := t.level, keylen := t.keylen, len := t.len,
    opa := t.opa, opb := t.opb, opc := t.opc, opd := t.opd, key := t.key, buf := t.buf,
    draws := t.draws, program := t.program, observed := t.observed }

theorem hostStep_frame (s : State) : s.HostFrame (hostStep s) := by
  obtain ⟨-, h⟩ | ⟨off, size, p, p', o, -, h⟩ | ⟨off, size, v, p, -, h⟩ := hostStep_access_cases s <;> rw [h]
  · rfl
  · obtain ⟨-, hr⟩ | ⟨-, d, hr⟩ := State.hostRead_cases { s with program := p } off size <;> rw [hr] <;> rfl
  · apply State.hostWrite_ind <;> intros <;> rfl

end HostTurn

section EngineTurn

variable {s t : State}

/-- The engine's turn writes no operand, none of OVR, BUSERR, LASTOP and IRQEN, and nothing of the host's (R42, R43). -/
theorem engineStep_frame (h : engineStep s = .next t) :
    t = { s with
      pending := .idle, done := t.done, err := t.err, errcode := t.errcode, keyvalid := t.keyvalid, ready := t.ready,
      size := t.size, rounds := t.rounds, result := t.result, key := t.key, buf := t.buf, sbox := t.sbox,
      sched := t.sched } := by
  obtain ⟨hp, rfl⟩ | ⟨-, rfl⟩ | ⟨w, i, -, -, h⟩ | ⟨w, -, -, rfl⟩ := engineStep_cases h
  · rw [← hp]
  · rfl
  · rw [exec_frame h]
  · rfl

/-- A command changes KEYVALID only as a KEYSET that succeeds or a ZEROIZE (R37). -/
theorem exec_keyvalid {i : Instr} (h : exec i s = .next t) (hk : t.keyvalid ≠ s.keyvalid) :
    (i = .keyset ∧ t.keyvalid = true ∧ t.errcode = .ok) ∨ (i = .zeroize ∧ t.keyvalid = false) := by
  obtain ⟨c, rfl⟩ | ⟨hi, n, r, rfl⟩ | ⟨hi, rfl⟩ | ⟨-, B, rfl⟩ | ⟨-, v, rfl⟩ := exec_writes h
  · exact absurd rfl hk
  · exact .inl ⟨hi, rfl, rfl⟩
  · exact .inr ⟨hi, rfl⟩
  · exact absurd rfl hk
  · exact absurd rfl hk

theorem engineStep_init_flags (hp : s.pending = .init) (h : engineStep s = .next t) :
    t.ready = true ∧ t.keyvalid = s.keyvalid ∧ t.done = s.done ∧ t.err = s.err ∧ t.errcode = s.errcode := by
  rw [engineStep_of_init hp] at h
  obtain rfl := Host.Outcome.next.inj h
  exact ⟨rfl, rfl, rfl, rfl, rfl⟩

theorem engineStep_cmd_flags {w : Word} (hp : s.pending = .cmd w) (h : engineStep s = .next t) :
    t.ready = s.ready ∧ t.done = true ∧ (t.err = true ↔ t.errcode ≠ .ok) ∧
      (t.keyvalid ≠ s.keyvalid →
        (decode w = some .keyset ∧ t.keyvalid = true ∧ t.errcode = .ok) ∨
        (decode w = some .zeroize ∧ t.keyvalid = false)) := by
  cases hd : decode w with
  | some i =>
    rw [engineStep_of_cmd hp hd] at h
    refine ⟨by rw [exec_frame h], by rw [exec_frame h], by rw [exec_frame h]; simp, fun hk => ?_⟩
    simpa using exec_keyvalid h hk
  | none =>
    rw [engineStep_of_illegal hp hd] at h
    obtain rfl := Host.Outcome.next.inj h
    exact ⟨rfl, rfl, by simp, fun hk => absurd rfl hk⟩

/-- Of the engine's steps only INIT writes SBOX (R35). -/
theorem engineStep_sbox (hp : s.pending ≠ .init) (h : engineStep s = .next t) : t.sbox = s.sbox := by
  obtain ⟨-, rfl⟩ | ⟨hi, -⟩ | ⟨w, i, -, -, h⟩ | ⟨w, -, -, rfl⟩ := engineStep_cases h
  · rfl
  · exact absurd hi hp
  · rw [exec_frame h]
  · rfl

theorem State.sboxAt_congr (hb : t.sbox = s.sbox) (he : t.epoch = s.epoch) (k : Fin 4) (i : SboxIndex) :
    t.sboxAt k i = s.sboxAt k i := by
  rw [State.sboxAt, State.sboxAt, hb, he]

end EngineTurn

/-- Settles O47: the host's turn by its access, the engine's by what is pending, and the reset values. -/
theorem flagsChangeOnlyByTheirEvents : Obligations.FlagsChangeOnlyByTheirEvents := by
  intro s t h
  refine ⟨fun ht => ?_, fun ht => ?_, fun ht => ?_⟩
  · rw [step_of_host ht] at h
    obtain rfl := Host.Outcome.next.inj h
    obtain ⟨ready, keyvalid, busy, done, ovr, buserr, accepted, kept⟩ := hostStep_hostFlags s.taken
    exact ⟨ready, keyvalid, busy, done, ovr, buserr, accepted, kept⟩
  · rw [step_of_engine ht] at h
    have hf := engineStep_frame h
    refine ⟨State.busy_eq_false.mpr (engineStep_pending h), by rw [hf]; rfl, by rw [hf]; rfl, by rw [hf]; rfl,
      by rw [hf]; rfl, fun hp => engineStep_init_flags (s := s.taken) hp h,
      fun w hp => engineStep_cmd_flags (s := s.taken) hp h⟩
  · rw [step_of_reset ht] at h
    obtain rfl := Host.Outcome.next.inj h
    exact ⟨rfl, rfl, rfl, rfl, rfl, rfl, rfl, rfl, rfl⟩

/-- Settles O49: neither the host's turn nor a command writes SBOX or counts a reset. -/
theorem sboxIsWrittenByInitOnly : Obligations.SboxIsWrittenByInitOnly := by
  intro s t h hreset hinit
  have kept : t.sbox = s.sbox ∧ t.epoch = s.epoch := by
    obtain ⟨-, rfl⟩ | ⟨-, h⟩ | ⟨ht, -⟩ := step_cases h
    · rw [hostStep_frame s.taken]
      exact ⟨rfl, rfl⟩
    · refine ⟨engineStep_sbox (s := s.taken) hinit h, ?_⟩
      rw [engineStep_frame h]
      rfl
    · exact absurd ht hreset
  exact ⟨kept.1, State.sboxAt_congr kept.1 kept.2⟩

end Sys2Proof.Machine

namespace Sys2Proof.Machine

/-! What an offset reaches, and the access made of it (O37, O38, O43). -/

section Access

/-- The registers lie below 0x040, with a gap at 0x02C (R20). -/
theorem regAt_range {o : Nat} {l : Loc} (h : regAt o = some l) : o < 0x040 ∧ o ≠ 0x02C := by
  unfold regAt at h
  split at h <;> cases h <;> decide

/-- An offset that reaches something is a register's or within a window (R20, R62). -/
theorem locAt_range {p : Params} {o : Nat} {l : Loc} (h : locAt p o = some l) :
    (o < 0x040 ∧ o ≠ 0x02C) ∨ (0x400 ≤ o ∧ o < 0x400 + 8 * p.nmax) ∨ (0x1000 ≤ o ∧ o < 0x1000 + p.bufBytes) := by
  unfold locAt at h
  split_ifs at h with hreg hkey hbuf
  · exact .inl (regAt_range h)
  · exact .inr (.inl ⟨by omega, hkey⟩)
  · exact .inr (.inr hbuf)

/-- A reserved offset reaches nothing (R65). -/
theorem locAt_of_reserved {p : Params} {o : Nat} (h : reservedOffset p o) : locAt p o = none := by
  have hn := p.nmax_le
  refine Option.eq_none_iff_forall_ne_some.mpr fun l hl => ?_
  have := locAt_range hl
  unfold reservedOffset at h
  omega

/-- The alignment of R64 in the words of the port's check. -/
theorem Offset.aligned_iff (off : Offset) : off.extractLsb' 0 2 = 0 ↔ off.toNat % 4 = 0 := by
  rw [← BitVec.toNat_inj, BitVec.extractLsb'_toNat]
  rfl

/-- An access of another width, misaligned or at a reserved offset reaches nothing (R63, R64, R65). -/
theorem accessLoc_of_unsupported {p : Params} {off : Offset} {size : Nat}
    (h : size ≠ 4 ∨ off.extractLsb' 0 2 ≠ 0 ∨ reservedOffset p off.toNat) : accessLoc p off size = none := by
  unfold accessLoc
  split_ifs with hs
  · obtain ⟨hsize, halign⟩ := hs
    obtain hw | ha | hr := h
    · exact absurd hsize hw
    · exact absurd ((Offset.aligned_iff off).mpr halign) ha
    · exact locAt_of_reserved hr
  · rfl

variable {s : State} {off : Offset} {size : Nat}

theorem State.hostRead_of_none (h : accessLoc s.params off size = none) : s.hostRead off size = (0, s.busError) := by
  rw [State.hostRead, h]

theorem State.hostWrite_of_none (h : accessLoc s.params off size = none) (v : Word) :
    s.hostWrite off size v = s.busError := by
  rw [State.hostWrite, h]

theorem State.hostRead_of_some {l : Loc} (h : accessLoc s.params off size = some l) :
    s.hostRead off size = s.readLoc l := by
  rw [State.hostRead, h]

theorem State.hostWrite_of_some {l : Loc} (h : accessLoc s.params off size = some l) (v : Word) :
    s.hostWrite off size v = s.writeLoc l v := by
  rw [State.hostWrite, h]

/-- A read of a KEY word shows 0, busy or not (R66). -/
theorem State.hostRead_keyWord {w : Nat} (hw : w < 2 * s.params.nmax) :
    s.hostRead (Loc.offset (.keyWord w)) 4 = (0, s) :=
  State.hostRead_of_some (accessLoc_keyWord _ hw)

/-- Only bits 1, 5 and 6 of a value written to STATUS count (R23). -/
theorem State.writeStatus_congr {v v' : Word} (h1 : v.getLsbD 1 = v'.getLsbD 1) (h5 : v.getLsbD 5 = v'.getLsbD 5)
    (h6 : v.getLsbD 6 = v'.getLsbD 6) : s.writeStatus v = s.writeStatus v' := by
  simp only [State.writeStatus, h1, h5, h6]

/-- Only bit 0 of a value written to IRQEN counts (R25). -/
theorem State.writeIrqen_congr {v v' : Word} (h : v.getLsbD 0 = v'.getLsbD 0) : s.writeIrqen v = s.writeIrqen v' := by
  simp only [State.writeIrqen, h]

/-- The reserved bits of IRQEN read 0 (R25). -/
theorem State.irqenWord_reserved (s : State) : s.irqenWord.extractLsb' 1 31 = 0 := by
  rw [State.irqenWord, BitVec.extractLsb'_append_eq_left]

end Access

/-- Settles O37: such an access reaches no location. -/
theorem unsupportedAccessSetsBuserr : Obligations.UnsupportedAccessSetsBuserr := by
  intro s off size h
  have hnone : accessLoc s.params off size = none := accessLoc_of_unsupported h
  exact ⟨State.hostRead_of_none hnone, State.hostWrite_of_none hnone⟩

/-- Settles O38: each offset by the location it reaches, and the written bits that count. -/
theorem readOnlyAndWriteOnlyLocations : Obligations.ReadOnlyAndWriteOnlyLocations := by
  intro s v v'
  refine ⟨?_, rfl, fun w hw => State.hostRead_keyWord hw, s.statusWord_getLsbD 7, s.statusWord_reserved,
    s.irqenWord_reserved, State.writeStatus_congr, State.writeIrqen_congr⟩
  simp only [List.forall_mem_cons, List.not_mem_nil, false_implies, implies_true, and_true]
  exact ⟨rfl, rfl, rfl, rfl, rfl⟩

/-- The four lanes of a word where a memory reads as that word from `a` on, and as another memory elsewhere (R62, R67). -/
theorem lanes_of_read {f g : Nat → Byte} {a : Nat} {v : Word}
    (h : ∀ x, f x = if a ≤ x ∧ x < a + 4 then byteOf v (x - a) else g x) :
    f a = v.extractLsb' 24 8 ∧ f (a + 1) = v.extractLsb' 16 8 ∧ f (a + 2) = v.extractLsb' 8 8 ∧
      f (a + 3) = v.extractLsb' 0 8 ∧ ∀ x, x < a ∨ a + 4 ≤ x → f x = g x := by
  have lane {i : Nat} (hi : i < 4) : f (a + i) = byteOf v i := by
    rw [h, if_pos (by omega), Nat.add_sub_cancel_left]
  refine ⟨lane (i := 0) (by decide), lane (by decide), lane (by decide), lane (by decide), fun x hx => ?_⟩
  rw [h, if_neg (by omega)]

/-- Settles O43: an idle block stores the word, and the memories' laws give its lanes. -/
theorem windowWordsAreBigEndian : Obligations.WindowWordsAreBigEndian := by
  intro s v hb hkey
  refine ⟨fun w hw => ?_, fun w hw => ?_⟩
  · have hloc := accessLoc_keyWord s.params hw
    obtain ⟨h0, h1, h2, h3, hrest⟩ := lanes_of_read (keyWrite_read hkey (accessLoc_key hloc) v)
    exact ⟨_, (State.hostWrite_of_some hloc v).trans (State.unlessBusy_of_idle hb _), h0, h1, h2, h3, hrest,
      State.hostRead_keyWord hw⟩
  · have hloc := accessLoc_bufWord s.params hw
    obtain ⟨h0, h1, h2, h3, hrest⟩ := lanes_of_read (fun x => s.bufByte_memWrite (4 * w) x v)
    exact ⟨_, (State.hostWrite_of_some hloc v).trans (State.unlessBusy_of_idle hb _), h0, h1, h2, h3, hrest,
      (State.hostRead_of_some hloc).trans (State.readResult_of_idle hb _)⟩

/-! The host's turn while busy (O48). -/

section BusyTurn

/-- `t` differs from `s` at most in what the host can change while BUSY = 1: DONE, OVR, BUSERR, IRQEN and the model's own
fields (R74, R300). -/
def State.BusyFrame (s t : State) : Prop :=
  t = { s with
    done := t.done, ovr := t.ovr, buserr := t.buserr, irqen := t.irqen,
    draws := t.draws, program := t.program, observed := t.observed, turns := t.turns }

variable {s : State} (hb : s.busy = true)

include hb

/-- No store is made while busy, so a write sets or clears flags only. -/
theorem State.hostWrite_busyFrame (off : Offset) (size : Nat) (v : Word) : s.BusyFrame (s.hostWrite off size v) := by
  have idle {P : Prop} (h : s.busy = false) : P := by simp [hb] at h
  exact State.hostWrite_ind s off size v rfl (fun _ => rfl) rfl rfl idle idle idle idle idle idle idle idle
    (fun _ h _ => idle h) (fun _ h _ => idle h)

theorem hostStep_busyFrame : s.BusyFrame (hostStep s) := by
  obtain ⟨-, h⟩ | ⟨off, size, p, p', o, -, h⟩ | ⟨off, size, v, p, -, h⟩ := hostStep_access_cases s <;> rw [h]
  · rfl
  · obtain ⟨-, hr⟩ | ⟨-, d, hr⟩ := State.hostRead_cases { s with program := p } off size <;> rw [hr] <;> rfl
  · exact State.hostWrite_busyFrame (s := { s with program := p }) hb off size v

end BusyTurn

/-- Settles O48: the host's turn from a busy state, by its access. -/
theorem operandsAreStableWhileBusy : Obligations.OperandsAreStableWhileBusy := by
  intro s t hb ht h
  rw [step_of_host ht] at h
  obtain rfl := Host.Outcome.next.inj h
  exact hostStep_busyFrame (s := s.taken) hb

/-- Settles O7: the host's turn by the next line of its program. -/
theorem hostTurnPerformsTransaction : Obligations.HostTurnPerformsTransaction := by
  intro s ht
  have turn {t : State} (h : hostStep s.taken = t) : step s = .next t := by rw [step_of_host ht, h]
  refine ⟨fun hp => turn (hostStep_of_nil (s := s.taken) hp).2,
    fun off size v rest hp => turn (hostStep_of_access (s := s.taken) hp).2,
    fun off size rest hp => turn (hostStep_of_access (s := s.taken) hp).2, fun rest hp => ?_⟩
  have hwait : hostStep s.taken = _ := (hostStep_of_wait (s := s.taken) hp).2.trans (s.taken.waitStep_eq rest)
  exact ⟨fun hb => turn (hwait.trans (if_pos hb)), fun hb => turn (hwait.trans (if_neg (Bool.eq_false_iff.mp hb)))⟩

end Sys2Proof.Machine

namespace Sys2Proof.Machine

/-! The decoder and the opcode map (O1, O2, O3). -/

section Decoder

/-- The opcodes that no command has (R94). -/
abbrev ReservedOp (op : BitVec 4) : Prop := op.toNat ∈ [0x5, 0x6, 0x7, 0xD, 0xE, 0xF]

/-- A command word is its two fields (R90). -/
theorem rsvField_append_opField (w : Word) : rsvField w ++ opField w = w :=
  BitVec.extractLsb'_append_extractLsb' (w := 28) (len := 4)

variable {w : Word} {i : Instr}

theorem word_eq_iff_fields {v : Word} : w = v ↔ rsvField w = rsvField v ∧ opField w = opField v := by
  refine ⟨fun h => h ▸ ⟨rfl, rfl⟩, fun ⟨hr, ho⟩ => ?_⟩
  rw [← rsvField_append_opField w, hr, ho, rsvField_append_opField]

theorem rsvField_encode (i : Instr) : rsvField (encode i) = 0 := by
  cases i <;> rfl

/-- The opcode map, row by row over the 16 opcodes (R91, R92). -/
theorem decodeOp_eq_some_iff {op : BitVec 4} : decodeOp op = some i ↔ op = opField (encode i) := by
  cases i <;> decide +revert

theorem decodeOp_eq_none_iff {op : BitVec 4} : decodeOp op = none ↔ ReservedOp op := by
  decide +revert

theorem decode_of_rsvField_ne (h : rsvField w ≠ 0) : decode w = none := if_pos h

theorem decode_of_rsvField_eq (h : rsvField w = 0) : decode w = decodeOp (opField w) := if_neg (not_not.mpr h)

/-- Each command has one word, its encoding (R92). -/
theorem decode_eq_some_iff : decode w = some i ↔ w = encode i := by
  rw [word_eq_iff_fields, rsvField_encode]
  by_cases hr : rsvField w = 0
  · rw [decode_of_rsvField_eq hr, decodeOp_eq_some_iff, and_iff_right hr]
  · rw [decode_of_rsvField_ne hr]
    exact iff_of_false nofun (hr ·.1)

theorem decode_encode (i : Instr) : decode (encode i) = some i := decode_eq_some_iff.mpr rfl

/-- The illegal words: a reserved bit set, or a reserved opcode (R94). -/
theorem decode_eq_none_iff : decode w = none ↔ rsvField w ≠ 0 ∨ ReservedOp (opField w) := by
  by_cases hr : rsvField w = 0
  · rw [decode_of_rsvField_eq hr, decodeOp_eq_none_iff, or_iff_right (not_not.mpr hr)]
  · exact iff_of_true (decode_of_rsvField_ne hr) (.inl hr)

/-- The mask of the legality check keeps the field RSV (R90). -/
theorem reservedZero_eq_true_iff : reservedZero w = true ↔ rsvField w = 0 := by
  have hmask : w &&& 0xFFFF_FFF0 = rsvField w ++ 0#4 := by
    calc w &&& 0xFFFF_FFF0
      _ = (rsvField w ++ opField w) &&& (BitVec.allOnes 28 ++ 0#4) := by rw [rsvField_append_opField]; rfl
      _ = rsvField w ++ 0#4 := by rw [BitVec.and_append, BitVec.and_allOnes, BitVec.and_zero]
  rw [reservedZero, hmask, beq_iff_eq]
  exact BitVec.append_left_inj (s₂ := 0#28) (0#4)

theorem opAssigned_eq_false_iff : opAssigned w = false ↔ ReservedOp (opField w) := by
  have hop : w.toNat % 16 = (opField w).toNat := by simp [opField]
  rw [opAssigned, hop]
  generalize opField w = op
  decide +revert

/-- The legality check finds the illegal words of R94. -/
theorem wellFormedWord_eq_false_iff : wellFormedWord w = false ↔ rsvField w ≠ 0 ∨ ReservedOp (opField w) := by
  rw [wellFormedWord, Bool.and_eq_false_iff, opAssigned_eq_false_iff, ← Bool.not_eq_true, reservedZero_eq_true_iff]

end Decoder

/-- Settles O3: a word that decodes is its command's encoding, and decoder and check call the same words illegal. -/
theorem decodeEncodeAgree : Obligations.DecodeEncodeAgree :=
  ⟨decode_encode, fun _ _ h => (decode_eq_some_iff.mp h).symm,
    fun _ => decode_eq_none_iff.trans wellFormedWord_eq_false_iff.symm⟩

/-- Settles O2: the opcode map lists the encoding of each command. -/
theorem opcodeMapIsExact : Obligations.OpcodeMapIsExact := fun _ =>
  ⟨decode_eq_some_iff, decode_eq_some_iff, decode_eq_some_iff, decode_eq_some_iff, decode_eq_some_iff,
    decode_eq_some_iff, decode_eq_some_iff, decode_eq_some_iff, decode_eq_some_iff, decode_eq_some_iff⟩

/-- Settles O1: six encodings, a reserved opcode and a reserved bit. -/
theorem decodeKnownWords : Obligations.DecodeKnownWords :=
  ⟨decode_encode .nop, decode_encode .keyset, decode_encode .decrypt, decode_encode .gfexp7, decode_encode .perm32,
    decode_encode .roundf, decode_eq_none_iff.mpr (.inr (by decide)), decode_eq_none_iff.mpr (.inl (by decide))⟩

/-! Whose turn it is, and the engine's step for a command word (O4, O5). -/

section Turns

variable {s : State}

theorem nextTurn_of_cons {u : Turn} {ts : List Turn} (h : s.turns = u :: ts) : nextTurn s = (u, ts) := by
  rw [nextTurn, h]

theorem nextTurn_of_nil (h : s.turns = []) : nextTurn s = (if s.busy then .engine else .host, []) := by
  rw [nextTurn, h]
  rfl

theorem State.taken_of_cons {u : Turn} {ts : List Turn} (h : s.turns = u :: ts) : s.taken = { s with turns := ts } := by
  rw [State.taken, nextTurn_of_cons h]

/-- With no turns said a step has none to take. -/
theorem State.taken_of_nil (h : s.turns = []) : s.taken = s := by
  rw [State.taken, nextTurn_of_nil h, ← h]

/-- With no turns said the engine moves while BUSY = 1 (R308; log entry 4). -/
theorem step_of_busy (ht : s.turns = []) (hb : s.busy = true) : step s = engineStep s := by
  rw [step_of_engine (by rw [nextTurn_of_nil ht, hb]; rfl), State.taken_of_nil ht]

theorem State.busy_of_cmd {w : Word} (hp : s.pending = .cmd w) : s.busy = true := by
  simp [State.busy_eq_true, hp]

end Turns

/-- Settles O4: the engine's turn, said or by default, runs the command that the pending word decodes to. -/
theorem stepRunsDecodedCommand : Obligations.StepRunsDecodedCommand := by
  intro s w i hp hd
  refine ⟨fun ts ht => ?_, fun ht => ?_⟩
  · rw [step_of_engine (by rw [nextTurn_of_cons ht]), State.taken_of_cons ht]
    exact engineStep_of_cmd (s := { s with turns := ts }) hp hd
  · rw [step_of_busy ht (State.busy_of_cmd hp)]
    exact engineStep_of_cmd hp hd

/-- Settles O5: the words of R94 are those the decoder refuses. -/
theorem illegalWordCompletesWithError : Obligations.IllegalWordCompletesWithError := by
  intro s w hp ht hw
  rw [step_of_engine ht]
  exact engineStep_of_illegal (s := s.taken) hp (decode_eq_none_iff.mpr hw)

/-! The loop `wait` of a host left alone (O51). -/

section Wait

variable {s : State}

/-- Every command ends (R307). -/
theorem exec_exists_next (i : Instr) (s : State) : ∃ t, exec i s = .next t := by
  cases i with
  | keyset => obtain ⟨-, h⟩ | ⟨-, h⟩ := execKeyset_cases s <;> exact ⟨_, h⟩
  | nop | encrypt | decrypt | zeroize | gfmul | gfexp7 | perm32 | sboxrd | roundf => exact ⟨_, rfl⟩

/-- The engine's turn ends, whatever is pending (R307). -/
theorem engineStep_exists_next (s : State) : ∃ t, engineStep s = .next t := by
  match hp : s.pending with
  | .idle => exact ⟨_, engineStep_of_idle hp⟩
  | .init => exact ⟨_, engineStep_of_init hp⟩
  | .cmd w =>
    cases hd : decode w with
    | some i => exact (exec_exists_next i s).imp fun _ h => (engineStep_of_cmd hp hd).trans h
    | none => exact ⟨_, engineStep_of_illegal hp hd⟩

/-- From a busy state with no turns said, one step ends the busy time and leaves the host's program. -/
theorem step_ends_busy (ht : s.turns = []) (hb : s.busy = true) :
    ∃ t, step s = .next t ∧ t.busy = false ∧ t.turns = [] ∧ t.program = s.program := by
  obtain ⟨t, h⟩ := engineStep_exists_next s
  have hframe := engineStep_frame h
  exact ⟨t, (step_of_busy ht hb).trans h, State.busy_eq_false.mpr (engineStep_pending h), by rw [hframe, ← ht],
    by rw [hframe]⟩

/-- From an idle state with no turns said, one step takes `wait` off the program. -/
theorem step_ends_wait {rest : List HostOp} (ht : s.turns = []) (hp : s.program = .wait :: rest)
    (hb : s.busy = false) : ∃ t, step s = .next t ∧ t.program = rest ∧ t.busy = false := by
  have hhost : (nextTurn s).1 = .host := by rw [nextTurn_of_nil ht, hb]; rfl
  obtain ⟨-, -, -, hwait⟩ := hostTurnPerformsTransaction s hhost
  exact ⟨_, (hwait rest hp).2 hb, rfl, hb⟩

/-- A run begins with a step. -/
theorem run_succ_of_next {M : Host.Core} {a b : M.State} (h : M.step a = .next b) (n : Nat) :
    M.run (n + 1) a = M.run n b := by
  rw [Host.Core.run, h]

end Wait

/-- Settles O51: a busy engine moves first, and the host's next read of STATUS then ends the loop. -/
theorem waitEndsWithinTwoSteps : Obligations.WaitEndsWithinTwoSteps := by
  intro s rest ht hp
  cases hb : s.busy with
  | false =>
    obtain ⟨t, h, hdone⟩ := step_ends_wait ht hp hb
    exact ⟨1, t, by decide, run_succ_of_next (M := core) h 0, hdone⟩
  | true =>
    obtain ⟨u, hu, hub, hut, hup⟩ := step_ends_busy ht hb
    obtain ⟨t, h, hdone⟩ := step_ends_wait hut (hup.trans hp) hub
    exact ⟨2, t, le_rfl, (run_succ_of_next (M := core) hu 1).trans (run_succ_of_next h 0), hdone⟩

end Sys2Proof.Machine

namespace Sys2Proof.Machine

/-! A value as a polynomial over GF(2) (R122). -/

section PolyOf

open Polynomial

variable {n : Nat}

theorem polyOf_coeff (v : BitVec n) (i : Nat) : (polyOf v).coeff i = if v.getLsbD i then 1 else 0 := by
  have hterm (j : Nat) : (if v.getLsbD j then (X : (ZMod 2)[X]) ^ j else 0).coeff i =
      if i = j then (if v.getLsbD i then 1 else 0) else 0 := by
    rw [apply_ite (coeff · i), coeff_X_pow, coeff_zero]
    by_cases h : i = j
    · subst h
      rw [if_pos rfl, if_pos rfl]
    · rw [if_neg h, if_neg h, ite_self]
  rw [polyOf, finsetSum_coeff, Finset.sum_congr rfl fun j _ => hterm j, Finset.sum_ite_eq]
  simp only [Finset.mem_range, ite_eq_left_iff, not_lt]
  intro hi
  rw [BitVec.getLsbD_of_ge v i hi, if_neg Bool.false_ne_true]

theorem polyOf_injective : Function.Injective (polyOf (n := n)) := by
  intro v w h
  refine BitVec.eq_of_getLsbD_eq fun i _ => ?_
  have hi := congrArg (coeff · i) h
  simp only [polyOf_coeff] at hi
  cases hv : v.getLsbD i <;> cases hw : w.getLsbD i <;> simp [hv, hw] at hi ⊢

/-- XOR is addition over GF(2). -/
theorem polyOf_xor (v w : BitVec n) : polyOf (v ^^^ w) = polyOf v + polyOf w := by
  ext i
  rw [coeff_add, polyOf_coeff, polyOf_coeff, polyOf_coeff, BitVec.getLsbD_xor]
  cases v.getLsbD i <;> cases w.getLsbD i <;> decide

@[simp] theorem polyOf_zero : polyOf 0#n = 0 := by
  ext i
  simp [polyOf_coeff]

@[simp] theorem polyOf_one : polyOf 1#8 = 1 := by
  ext i
  cases i <;> simp [polyOf_coeff, coeff_one]

/-- The 9-bit shift of R120 loses no bit. -/
theorem polyOf_shift (a : Byte) : polyOf (a.setWidth 9 <<< 1) = X * polyOf a := by
  ext i
  cases i with
  | zero => simp [polyOf_coeff]
  | succ i =>
    have hbit : (a.setWidth 9 <<< 1).getLsbD (i + 1) = a.getLsbD i := by
      by_cases hi : i < 8
      · have hi9 : i + 1 < 9 := by omega
        simp [hi9]
      · simp [BitVec.getLsbD_of_ge a i (by omega)]
    rw [coeff_X_mul, polyOf_coeff, polyOf_coeff, hbit]

/-- The lowest bit of a value, and the rest of it. -/
theorem polyOf_eq_bit_add (b : BitVec n) :
    polyOf b = (if b.getLsbD 0 then (1 : (ZMod 2)[X]) else 0) + X * polyOf (b >>> 1) := by
  ext i
  cases i with
  | zero => rw [coeff_add, coeff_X_mul_zero, add_zero, polyOf_coeff, apply_ite (coeff · 0), coeff_one_zero, coeff_zero]
  | succ i =>
    have hbit : (b >>> 1).getLsbD i = b.getLsbD (i + 1) := by rw [BitVec.getLsbD_ushiftRight, Nat.add_comm]
    rw [coeff_add, coeff_X_mul, polyOf_coeff, polyOf_coeff, hbit, apply_ite (coeff · (i + 1))]
    simp [coeff_one]

/-- Bit 8 of a 9-bit value is set exactly from 256 on. -/
theorem Modulus.getLsbD_eight (x : Modulus) : x.getLsbD 8 = decide (256 ≤ x.toNat) := BitVec.msb_eq_decide x

/-- Where bit 8 is 0, the low byte is the value (R121). -/
theorem polyOf_setWidth_byte {x : Modulus} (h : x.getLsbD 8 = false) : polyOf (x.setWidth 8) = polyOf x := by
  ext i
  have hbit : (x.setWidth 8).getLsbD i = x.getLsbD i := by
    obtain hi | rfl | hi : i < 8 ∨ i = 8 ∨ 9 ≤ i := by omega
    · rw [BitVec.getLsbD_setWidth, decide_eq_true hi, Bool.true_and]
    · rw [h, BitVec.getLsbD_of_ge _ _ le_rfl]
    · rw [BitVec.getLsbD_of_ge x i hi, BitVec.getLsbD_of_ge _ i (by omega)]
  rw [polyOf_coeff, polyOf_coeff, hbit]

theorem degree_polyOf_lt (v : BitVec n) : (polyOf v).degree < n :=
  (degree_lt_iff_coeff_zero _ _).mpr fun i hi => by
    rw [polyOf_coeff, BitVec.getLsbD_of_ge v i hi, if_neg Bool.false_ne_true]

variable {m : Modulus} (hm : m.getLsbD 8 = true)

include hm

theorem polyOf_modulus_coeff_eight : (polyOf m).coeff 8 = 1 := by
  rw [polyOf_coeff, if_pos hm]

theorem polyOf_modulus_monic : (polyOf m).Monic :=
  monic_of_degree_le 8 (Order.le_of_lt_succ (degree_polyOf_lt m)) (polyOf_modulus_coeff_eight hm)

/-- The degree of a byte is below that of the modulus, which is 8. -/
theorem degree_polyOf_byte_lt_modulus (v : Byte) : (polyOf v).degree < (polyOf m).degree :=
  (degree_polyOf_lt v).trans_le (le_degree_of_ne_zero (by rw [polyOf_modulus_coeff_eight hm]; exact one_ne_zero))

end PolyOf

/-! The GF unit in the ring of residues modulo m (R122, R124). -/

section Residue

open Polynomial

/-- The residue modulo m of the polynomial of a value. -/
noncomputable def residue {n : Nat} (m : Modulus) (v : BitVec n) : AdjoinRoot (polyOf m) :=
  AdjoinRoot.mk (polyOf m) (polyOf v)

@[simp] theorem residue_zero {n : Nat} (m : Modulus) : residue m 0#n = 0 := by
  rw [residue, polyOf_zero, map_zero]

@[simp] theorem residue_one (m : Modulus) : residue m 1#8 = 1 := by
  rw [residue, polyOf_one, map_one]

theorem residue_xor {n : Nat} (m : Modulus) (v w : BitVec n) : residue m (v ^^^ w) = residue m v + residue m w := by
  rw [residue, polyOf_xor, map_add, residue, residue]

/-- The modulus is 0 in its own ring of residues. -/
@[simp] theorem residue_modulus (m : Modulus) : residue m m = 0 := AdjoinRoot.mk_self

theorem residue_shift (m : Modulus) (a : Byte) :
    residue m (a.setWidth 9 <<< 1) = AdjoinRoot.root (polyOf m) * residue m a := by
  rw [residue, polyOf_shift, map_mul, AdjoinRoot.mk_X, residue]

theorem residue_eq_bit_add {n : Nat} (m : Modulus) (b : BitVec n) :
    residue m b =
      (if b.getLsbD 0 then (1 : AdjoinRoot (polyOf m)) else 0) + AdjoinRoot.root (polyOf m) * residue m (b >>> 1) := by
  rw [residue, polyOf_eq_bit_add b, map_add, apply_ite (AdjoinRoot.mk (polyOf m)), map_one, map_zero, map_mul,
    AdjoinRoot.mk_X, residue]

theorem residue_setWidth_byte (m : Modulus) {x : Modulus} (h : x.getLsbD 8 = false) :
    residue m (x.setWidth 8) = residue m x := by
  rw [residue, polyOf_setWidth_byte h, residue]

variable {m : Modulus} (hm : m.getLsbD 8 = true)

include hm

/-- A byte is the remainder modulo m of every polynomial with its residue. -/
theorem polyOf_eq_modByMonic {v : Byte} {p : (ZMod 2)[X]} (h : residue m v = AdjoinRoot.mk (polyOf m) p) :
    polyOf v = p %ₘ polyOf m := by
  have hmonic := polyOf_modulus_monic hm
  calc polyOf v
    _ = polyOf v %ₘ polyOf m := ((modByMonic_eq_self_iff hmonic).mpr (degree_polyOf_byte_lt_modulus hm v)).symm
    _ = p %ₘ polyOf m := modByMonic_eq_of_dvd_sub hmonic (AdjoinRoot.mk_eq_mk.mp h)

theorem residue_injective : Function.Injective (residue (n := 8) m) := fun _ _ h =>
  polyOf_injective ((polyOf_eq_modByMonic hm h).trans (polyOf_eq_modByMonic hm rfl).symm)

/-- The shift of the multiplicand multiplies by x: where it reaches 256, XOR with m clears bit 8 (R121). -/
theorem residue_gfShift (a : Byte) : residue m (gfShift m a) = AdjoinRoot.root (polyOf m) * residue m a := by
  rw [← residue_shift, gfShift]
  generalize a.setWidth 9 <<< 1 = x
  have h8 := Modulus.getLsbD_eight x
  split_ifs with hx
  · have hclear : (x ^^^ m).getLsbD 8 = false := by rw [BitVec.getLsbD_xor, h8, hm, decide_eq_true hx, Bool.xor_self]
    rw [residue_setWidth_byte m hclear, residue_xor, residue_modulus, add_zero]
  · have hclear : x.getLsbD 8 = false := by rw [h8, decide_eq_false hx]
    rw [residue_setWidth_byte m hclear]

/-- The loop of R120 adds a * b to the accumulator when the steps left suffice for b. -/
theorem residue_gfMultLoop (n : Nat) (a b res : Byte) (hb : b.toNat < 2 ^ n) :
    residue m (gfMultLoop m n a b res) = residue m res + residue m a * residue m b := by
  induction n generalizing a b res with
  | zero =>
    obtain rfl : b = 0 := BitVec.eq_of_toNat_eq (Nat.lt_one_iff.mp hb)
    simp [gfMultLoop]
  | succ n ih =>
    have hshift : (b >>> 1).toNat < 2 ^ n := by
      rw [BitVec.toNat_ushiftRight, Nat.shiftRight_eq_div_pow]
      omega
    rw [gfMultLoop]
    split_ifs with h0 hbit
    · simp [h0]
    · rw [ih _ _ _ hshift, residue_gfShift hm, residue_xor, residue_eq_bit_add m b, if_pos hbit]
      ring
    · rw [ih _ _ _ hshift, residue_gfShift hm, residue_eq_bit_add m b, if_neg hbit]
      ring

theorem residue_gfMult (a b : Byte) : residue m (gfMult a b m) = residue m a * residue m b := by
  rw [gfMult, residue_gfMultLoop hm 8 a b 0 b.isLt, BitVec.ofNat_eq_ofNat, residue_zero, zero_add]

/-- The short-circuit at 0 returns what the multiplications would (R124). -/
theorem residue_gfExp7 (b : Byte) : residue m (gfExp7 b m) = residue m b ^ 7 := by
  rw [gfExp7]
  split_ifs with h0
  · simp [h0]
  · simp only [residue_gfMult hm]
    ring

end Residue

/-- Settles O25: in the ring of residues modulo m, gf_mult is the product, and bytes are determined by their residues. -/
theorem gfMultIsPolynomialProduct : Obligations.GfMultIsPolynomialProduct := by
  intro m hm
  have byResidue {v w : Byte} (h : residue m v = residue m w) : v = w := residue_injective hm h
  refine ⟨fun a b => polyOf_eq_modByMonic hm ?_, fun a b => byResidue ?_, fun a b c => byResidue ?_, fun a =>
    ⟨byResidue ?_, byResidue ?_⟩⟩
  · rw [residue_gfMult hm, map_mul, residue, residue]
  · rw [residue_gfMult hm, residue_gfMult hm, mul_comm]
  · simp only [residue_gfMult hm, mul_assoc]
  · simp [residue_gfMult hm]
  · simp [residue_gfMult hm]

/-- Settles O26: the seventh power of the residue, which is 1 for the byte 1. -/
theorem gfExp7IsSeventhPower : Obligations.GfExp7IsSeventhPower := by
  intro m b hm
  refine ⟨polyOf_eq_modByMonic hm ?_, residue_injective hm ?_⟩
  · rw [residue_gfExp7 hm, map_pow, residue]
  · simp [residue_gfExp7 hm]

/-! The operands of GFMUL and GFEXP7, and the commands (O13, O14). -/

section GfCommands

variable (s : State)

/-- The operands of GFMUL are there exactly when each field's other bits are 0 and OPC[8] = 1 (R125). -/
theorem State.gfmulOperands_eq :
    s.gfmulOperands =
      if s.opa.extractLsb' 8 24 = 0 ∧ s.opb.extractLsb' 8 24 = 0 ∧ s.opc.extractLsb' 9 23 = 0 ∧ s.opc.getLsbD 8 = true
      then some (s.opa.extractLsb' 0 8, s.opb.extractLsb' 0 8, s.opc.extractLsb' 0 9) else none := by
  rw [State.gfmulOperands, lowField_eq 8 24 s.opa rfl, lowField_eq 8 24 s.opb rfl, modulusField_eq]
  by_cases h :
      s.opa.extractLsb' 8 24 = 0 ∧ s.opb.extractLsb' 8 24 = 0 ∧ s.opc.extractLsb' 9 23 = 0 ∧ s.opc.getLsbD 8 = true
  · obtain ⟨ha, hb, hc⟩ := h
    rw [if_pos ha, if_pos hb, if_pos hc, if_pos ⟨ha, hb, hc⟩]
  · rw [if_neg h]
    split
    · rename_i ha hb hc
      rw [Option.ite_none_right_eq_some] at ha hb hc
      exact absurd ⟨ha.1, hb.1, hc.1⟩ h
    · rfl

/-- The operands of GFEXP7 are there exactly when each field's other bits are 0 and OPC[8] = 1 (R126). -/
theorem State.gfexp7Operands_eq :
    s.gfexp7Operands =
      if s.opa.extractLsb' 8 24 = 0 ∧ s.opc.extractLsb' 9 23 = 0 ∧ s.opc.getLsbD 8 = true
      then some (s.opa.extractLsb' 0 8, s.opc.extractLsb' 0 9) else none := by
  rw [State.gfexp7Operands, lowField_eq 8 24 s.opa rfl, modulusField_eq]
  by_cases h : s.opa.extractLsb' 8 24 = 0 ∧ s.opc.extractLsb' 9 23 = 0 ∧ s.opc.getLsbD 8 = true
  · obtain ⟨ha, hc⟩ := h
    rw [if_pos ha, if_pos hc, if_pos ⟨ha, hc⟩]
  · rw [if_neg h]
    split
    · rename_i ha hc
      rw [Option.ite_none_right_eq_some] at ha hc
      exact absurd ⟨ha.1, hc.1⟩ h
    · rfl

theorem exec_gfmul :
    exec .gfmul s = .next (s.diagnose (s.gfmulOperands.map fun x => (gfMult x.1 x.2.1 x.2.2).setWidth 32)) := rfl

theorem exec_gfexp7 :
    exec .gfexp7 s = .next (s.diagnose (s.gfexp7Operands.map fun x => (gfExp7 x.1 x.2).setWidth 32)) := rfl

end GfCommands

/-- Settles O13: the command by whether its operands are there. -/
theorem gfmulResult : Obligations.GfmulResult := by
  intro s
  rw [exec_gfmul, State.gfmulOperands_eq]
  refine ⟨fun h => by rw [if_pos h]; rfl, fun h => ?_⟩
  simp only [← Bool.not_eq_true, ne_eq, ← not_and_or] at h
  rw [if_neg h]
  rfl

/-- Settles O14: the command by whether its operands are there. -/
theorem gfexp7Result : Obligations.Gfexp7Result := by
  intro s
  rw [exec_gfexp7, State.gfexp7Operands_eq]
  refine ⟨fun h => by rw [if_pos h]; rfl, fun h => ?_⟩
  simp only [← Bool.not_eq_true, ne_eq, ← not_and_or] at h
  rw [if_neg h]
  rfl

end Sys2Proof.Machine

namespace Sys2Proof.Machine

/-! perm32 as a map of bits (R150, R151). -/

section Perm32

/-- The masks that perm32 takes for the set bits of `x`, one bit at a time (R151). -/
def scatterBit (x r : Word) (n : Nat) : Word := if x.getLsbD n then r ||| pboxMask n else r

/-- No mask is taken from bit `n` on when the bits from there are 0. -/
theorem foldl_scatterBit_of_zero {x : Word} {n : Nat} (h : x >>> n = 0) (k : Nat) (r : Word) :
    (List.range' n k).foldl (scatterBit x) r = r := by
  induction k with
  | zero => rfl
  | succ k ih =>
    have hbit : x.getLsbD (n + k) = false := by
      rw [← BitVec.getLsbD_ushiftRight, h, BitVec.ofNat_eq_ofNat, BitVec.getLsbD_zero]
    rw [List.range'_1_concat, List.foldl_append, ih, List.foldl_cons, List.foldl_nil, scatterBit, hbit,
      if_neg Bool.false_ne_true]

/-- The loop of R150 from mask `n` on; its early stop skips bits that are 0. -/
theorem perm32Loop_eq_foldl (x : Word) (k n : Nat) (r : Word) :
    perm32Loop k n (x >>> n) r = (List.range' n k).foldl (scatterBit x) r := by
  induction k generalizing n r with
  | zero => rfl
  | succ k ih =>
    rw [perm32Loop]
    split_ifs with h0 hbit
    · rw [foldl_scatterBit_of_zero h0]
    all_goals
      rw [BitVec.getLsbD_ushiftRight, Nat.add_zero] at hbit
      rw [← BitVec.shiftRight_add, ih, List.range'_succ, List.foldl_cons, scatterBit]
    · rw [if_pos hbit]
    · rw [if_neg hbit]

theorem perm32_eq_foldl (x : Word) : perm32 x = (List.range 32).foldl (scatterBit x) 0 := by
  rw [perm32, List.range_eq_range', ← perm32Loop_eq_foldl, BitVec.ushiftRight_zero]

theorem getLsbD_foldl_scatterBit (x : Word) (l : List Nat) (r : Word) (d : Nat) :
    (l.foldl (scatterBit x) r).getLsbD d = (r.getLsbD d || l.any fun n => x.getLsbD n && (pboxMask n).getLsbD d) := by
  induction l generalizing r with
  | nil => simp
  | cons n l ih =>
    rw [List.foldl_cons, ih, List.any_cons, scatterBit, ← Bool.or_assoc]
    cases x.getLsbD n <;> simp

/-- Each mask is the one bit of the map (R142, R143). -/
theorem pboxMask_eq_twoPow : ∀ n < 32, pboxMask n = BitVec.twoPow 32 (pboxDest.getD n 0) := by decide

/-- The map of R142 is a permutation of the bit numbers (R143). -/
theorem pboxDest_perm : pboxDest.Perm (List.range 32) := by decide

theorem pboxDest_lt {n : Nat} (h : n < 32) : pboxDest.getD n 0 < 32 := by
  rw [List.getD_eq_getElem _ _ h, ← List.mem_range, ← pboxDest_perm.mem_iff]
  exact List.getElem_mem h

theorem pboxDest_inj {n l : Nat} (hn : n < 32) (hl : l < 32) : pboxDest.getD n 0 = pboxDest.getD l 0 ↔ n = l := by
  rw [List.getD_eq_getElem _ _ hn, List.getD_eq_getElem _ _ hl]
  exact (pboxDest_perm.nodup_iff.mpr List.nodup_range).getElem_inj_iff

theorem pboxDest_surj {d : Nat} (hd : d < 32) : ∃ n < 32, pboxDest.getD n 0 = d := by
  obtain ⟨n, hn, rfl⟩ := List.getElem_of_mem (pboxDest_perm.mem_iff.mpr (List.mem_range.mpr hd))
  exact ⟨n, hn, List.getD_eq_getElem _ _ hn⟩

/-- Bit s moves to bit d(s) (R142, R151). -/
theorem getLsbD_perm32 (x : Word) {n : Nat} (hn : n < 32) : (perm32 x).getLsbD (pboxDest.getD n 0) = x.getLsbD n := by
  have hmask (l : Nat) (hl : l < 32) : (pboxMask l).getLsbD (pboxDest.getD n 0) = decide (n = l) := by
    rw [pboxMask_eq_twoPow l hl, BitVec.getLsbD_twoPow, decide_eq_true (pboxDest_lt hl), Bool.true_and,
      decide_eq_decide, eq_comm, pboxDest_inj hn hl]
  rw [perm32_eq_foldl, getLsbD_foldl_scatterBit, BitVec.ofNat_eq_ofNat, BitVec.getLsbD_zero, Bool.false_or,
    Bool.eq_iff_iff, List.any_eq_true]
  constructor
  · rintro ⟨l, hl, h⟩
    rw [hmask l (List.mem_range.mp hl), Bool.and_eq_true, decide_eq_true_eq] at h
    obtain ⟨hx, rfl⟩ := h
    exact hx
  · exact fun h => ⟨n, List.mem_range.mpr hn, by rw [h, hmask n hn, decide_eq_true rfl, Bool.and_self]⟩

/-- A word is perm32 of `x` when it has the bits of `x` at their destinations. -/
theorem eq_perm32_of_bits {w x : Word} (h : ∀ n < 32, w.getLsbD (pboxDest.getD n 0) = x.getLsbD n) : w = perm32 x := by
  refine BitVec.eq_of_getLsbD_eq fun d hd => ?_
  obtain ⟨n, hn, rfl⟩ := pboxDest_surj hd
  rw [h n hn, getLsbD_perm32 x hn]

theorem perm32_injective : Function.Injective perm32 := by
  intro x y h
  refine BitVec.eq_of_getLsbD_eq fun n hn => ?_
  rw [← getLsbD_perm32 x hn, h, getLsbD_perm32 y hn]

theorem perm32_zero : perm32 0 = 0 := rfl

theorem perm32_not (x : Word) : perm32 (~~~x) = ~~~perm32 x := by
  refine (eq_perm32_of_bits fun n hn => ?_).symm
  rw [BitVec.getLsbD_not, getLsbD_perm32 x hn, BitVec.getLsbD_not, decide_eq_true hn, decide_eq_true (pboxDest_lt hn)]

theorem perm32_and (x y : Word) : perm32 (x &&& y) = perm32 x &&& perm32 y := by
  refine (eq_perm32_of_bits fun n hn => ?_).symm
  rw [BitVec.getLsbD_and, getLsbD_perm32 x hn, getLsbD_perm32 y hn, BitVec.getLsbD_and]

theorem perm32_xor (x y : Word) : perm32 (x ^^^ y) = perm32 x ^^^ perm32 y := by
  refine (eq_perm32_of_bits fun n hn => ?_).symm
  rw [BitVec.getLsbD_xor, getLsbD_perm32 x hn, getLsbD_perm32 y hn, BitVec.getLsbD_xor]

end Perm32

/-- Settles O27: each mask is one bit of the map of R142, which is a permutation; all ones is the complement of 0. -/
theorem perm32MovesBits : Obligations.Perm32MovesBits :=
  ⟨fun x _ hn => getLsbD_perm32 x hn, perm32_eq_foldl, perm32_zero, perm32_not 0, perm32_xor⟩

/-! The bits of an S-box entry (R143, R154). -/

section SboxBits

/-- The byte of the word that S-box `k` gives to perm32 (R153). -/
def byteLane (k : Fin 4) : Word := (0xFF : Word) <<< (24 - 8 * k.val)

/-- The output bit set of an S-box is the image of its byte (R143). -/
theorem sboxBits_eq_perm32 : ∀ k, sboxBits k = perm32 (byteLane k) := by decide +kernel

theorem setWidth_shiftLeft_and_not_byteLane (e : Byte) (k : Fin 4) :
    (e.setWidth 32 <<< (24 - 8 * k.val)) &&& ~~~byteLane k = 0 := by
  have hbyte : e.setWidth 32 &&& 0xFF = e.setWidth 32 := by
    rw [show (0xFF : Word) = (BitVec.allOnes 8).setWidth 32 from rfl, ← BitVec.setWidth_and, BitVec.and_allOnes]
  rw [← hbyte, BitVec.shiftLeft_and_distrib, byteLane, BitVec.and_assoc, BitVec.and_not_self]
  exact BitVec.and_zero

theorem sboxEntry_and_not_sboxBits (k : Fin 4) (i : SboxIndex) : sboxEntry k i &&& ~~~sboxBits k = 0 := by
  rw [sboxBits_eq_perm32, sboxEntry, ← perm32_not, ← perm32_and, setWidth_shiftLeft_and_not_byteLane, perm32_zero]

theorem sboxBits_and_sboxBits : ∀ k l, k ≠ l → sboxBits k &&& sboxBits l = 0 := by decide

/-- Words within disjoint bit sets have no bit in common. -/
theorem and_eq_zero_of_disjoint {v w a b : Word} (hv : v &&& ~~~a = 0) (hw : w &&& ~~~b = 0) (h : a &&& b = 0) :
    v &&& w = 0 := by
  have hsub {x c : Word} (hx : x &&& ~~~c = 0) : x = x &&& c := by
    rw [← BitVec.or_zero (x := x &&& c), ← BitVec.ofNat_eq_ofNat, ← hx, ← BitVec.and_or_distrib_left, BitVec.or_not_self,
      BitVec.and_allOnes]
  calc v &&& w
    _ = v &&& a &&& (w &&& b) := by rw [← hsub hv, ← hsub hw]
    _ = v &&& w &&& (a &&& b) := by ac_rfl
    _ = 0 := by rw [h, BitVec.ofNat_eq_ofNat, BitVec.and_zero]

theorem or_eq_xor_of_and_eq_zero {v w : Word} (h : v &&& w = 0) : v ||| w = v ^^^ w := by
  refine BitVec.eq_of_getLsbD_eq fun n _ => ?_
  have hn := congrArg (BitVec.getLsbD · n) h
  revert hn
  simp only [BitVec.getLsbD_and, BitVec.getLsbD_or, BitVec.getLsbD_xor, BitVec.ofNat_eq_ofNat, BitVec.getLsbD_zero]
  cases v.getLsbD n <;> cases w.getLsbD n <;> decide

theorem sboxEntry_and_sboxEntry {k l : Fin 4} (h : k ≠ l) (i j : SboxIndex) : sboxEntry k i &&& sboxEntry l j = 0 :=
  and_eq_zero_of_disjoint (sboxEntry_and_not_sboxBits k i) (sboxEntry_and_not_sboxBits l j) (sboxBits_and_sboxBits k l h)

/-- The OR of one entry of each S-box is their XOR (R154). -/
theorem sboxEntry_or_eq_xor (i₀ i₁ i₂ i₃ : SboxIndex) :
    sboxEntry 0 i₀ ||| sboxEntry 1 i₁ ||| sboxEntry 2 i₂ ||| sboxEntry 3 i₃ =
      sboxEntry 0 i₀ ^^^ sboxEntry 1 i₁ ^^^ sboxEntry 2 i₂ ^^^ sboxEntry 3 i₃ := by
  have h {k l : Fin 4} (hkl : k ≠ l) (i j : SboxIndex) := sboxEntry_and_sboxEntry hkl i j
  rw [or_eq_xor_of_and_eq_zero (w := sboxEntry 3 i₃), or_eq_xor_of_and_eq_zero (w := sboxEntry 2 i₂),
    or_eq_xor_of_and_eq_zero (h (by decide) i₀ i₁)]
  · rw [BitVec.and_or_distrib_right, h (by decide), h (by decide), BitVec.or_self]
  · simp only [BitVec.and_or_distrib_right]
    rw [h (by decide), h (by decide), h (by decide), BitVec.or_self, BitVec.or_self]

end SboxBits

theorem State.Inv.sbox_built {s : State} (hs : s.Inv) (hr : s.ready = true) : s.sbox = builtSbox := by
  rw [hs.sbox_eq, if_pos hr]

/-- Settles O28: perm32 scatters disjoint bytes to disjoint bit sets. -/
theorem sboxOutputsAreDisjoint : Obligations.SboxOutputsAreDisjoint := by
  refine ⟨sboxEntry_and_not_sboxBits, sboxBits_and_sboxBits, by decide, fun s p sk hs hr => ?_⟩
  simp only [roundF, State.sboxAt_of_built (hs.sbox_built hr)]
  exact sboxEntry_or_eq_xor _ _ _ _

/-! The seventh power modulo a modulus of ICE_SMOD is injective (R124, R154): every residue is its own 256th power, as in a
field of 256 elements, and so z = (z^7)^73. -/

section SeventhPower

open Polynomial

/-- gf_mult(b, b, m). -/
def gfSquare (m : Modulus) (b : Byte) : Byte := gfMult b b m

/-- Eight squarings of x, the byte 2, give x again, for every modulus of R140. -/
theorem gfSquare_iterate_smod : ∀ k row : Fin 4, (gfSquare Config.smod[k][row])^[8] 2 = 2 := by decide +kernel

theorem smod_getLsbD_eight : ∀ k row : Fin 4, Config.smod[k][row].getLsbD 8 = true := by decide

/-- The byte 2 is x. -/
theorem residue_two (m : Modulus) : residue m (2 : Byte) = AdjoinRoot.root (polyOf m) := by
  rw [residue_eq_bit_add]
  simp

/-- Where x is its own 256th power, so is every residue: the 256th power is a homomorphism over ZMod 2. -/
theorem pow_256_of_root {f : (ZMod 2)[X]} (h : AdjoinRoot.root f ^ 256 = AdjoinRoot.root f) (z : AdjoinRoot f) :
    z ^ 256 = z := by
  have hpow (y : AdjoinRoot f) : (FiniteField.frobeniusAlgHom (ZMod 2) (AdjoinRoot f) ^ 8) y = y ^ 256 := by
    rw [AlgHom.coe_pow, FiniteField.coe_frobeniusAlgHom, pow_iterate, ZMod.card, show 2 ^ 8 = 256 from rfl]
  have hid : FiniteField.frobeniusAlgHom (ZMod 2) (AdjoinRoot f) ^ 8 = 1 :=
    AdjoinRoot.algHom_ext ((hpow _).trans h)
  rw [← hpow, hid, AlgHom.one_apply]

variable {m : Modulus} (hm : m.getLsbD 8 = true)

include hm

theorem residue_gfSquare_iterate (n : Nat) (b : Byte) : residue m ((gfSquare m)^[n] b) = residue m b ^ 2 ^ n := by
  induction n with
  | zero => simp
  | succ n ih => rw [Function.iterate_succ_apply', gfSquare, residue_gfMult hm, ih, pow_succ, pow_mul, sq]

theorem gfExp7_injective (h : (gfSquare m)^[8] 2 = 2) : Function.Injective fun b => gfExp7 b m := by
  have hroot : AdjoinRoot.root (polyOf m) ^ 256 = AdjoinRoot.root (polyOf m) := by
    rw [← residue_two, show 256 = 2 ^ 8 from rfl, ← residue_gfSquare_iterate hm, h]
  have hinv (z : AdjoinRoot (polyOf m)) : (z ^ 7) ^ 73 = z := by
    calc (z ^ 7) ^ 73
      _ = z ^ 256 * z ^ 255 := by ring
      _ = z * z ^ 255 := by rw [pow_256_of_root hroot]
      _ = z ^ 256 := by ring
      _ = z := pow_256_of_root hroot z
  intro a b hab
  apply residue_injective hm
  rw [← hinv (residue m a), ← hinv (residue m b), ← residue_gfExp7 hm, ← residue_gfExp7 hm]
  exact congrArg (residue m · ^ 73) hab

end SeventhPower

/-! The index of an S-box entry (R152), and INIT's table (O29, O6). -/

theorem shiftLeft_byte_injective {n : Nat} (hn : n ≤ 24) : Function.Injective fun e : Byte => e.setWidth 32 <<< n := by
  intro a b h
  refine BitVec.eq_of_getLsbD_eq fun i hi => ?_
  have hbit := congrArg (BitVec.getLsbD · (i + n)) h
  have hlt : i + n < 32 := by omega
  simpa [hlt, hi] using hbit

theorem sboxRow_eq_iff {i : SboxIndex} {r : Fin 4} :
    sboxRow i = r ↔ r.val = 2 * (i.getLsbD 9).toNat + (i.getLsbD 0).toNat := by
  rw [← sboxRow_val, Fin.ext_iff, eq_comm]

theorem sboxEntry_of_row (k : Fin 4) {i : SboxIndex} {r : Fin 4} (h : sboxRow i = r) :
    sboxEntry k i =
      perm32 ((gfExp7 (sboxCol i ^^^ Config.sxor[k][r]) Config.smod[k][r]).setWidth 32 <<< (24 - 8 * k.val)) := by
  subst h
  rfl

/-- An index is its row bits and its column (R152). -/
theorem sboxIndex_ext {i j : SboxIndex} (h9 : i.getLsbD 9 = j.getLsbD 9) (h0 : i.getLsbD 0 = j.getLsbD 0)
    (hcol : sboxCol i = sboxCol j) : i = j := by
  refine BitVec.eq_of_getLsbD_eq fun n hn => ?_
  obtain rfl | rfl | ⟨hpos, h8⟩ : n = 9 ∨ n = 0 ∨ 1 ≤ n ∧ n - 1 < 8 := by omega
  · exact h9
  · exact h0
  · have hbit := congrArg (BitVec.getLsbD · (n - 1)) hcol
    simpa [sboxCol, h8, Nat.add_sub_cancel' hpos] using hbit

/-- Settles O29: from the entry back to the column, perm32, the shift, the seventh power and the XOR are each injective. -/
theorem sboxRowsAreInjective : Obligations.SboxRowsAreInjective := by
  intro k i j h9 h0 h
  have hrow : sboxRow i = sboxRow j := sboxRow_eq_iff.mpr (by rw [sboxRow_val, h9, h0])
  rw [sboxEntry_of_row k hrow, sboxEntry_of_row k rfl] at h
  have hbyte := shiftLeft_byte_injective (by omega) (perm32_injective h)
  have hcol := gfExp7_injective (smod_getLsbD_eight k _) (gfSquare_iterate_smod k _) hbyte
  exact sboxIndex_ext h9 h0 ((BitVec.xor_left_inj _).mp hcol)

/-- Settles O6: the engine takes the INIT step, and the table is builtSbox. -/
theorem initBuildsSboxes : Obligations.InitBuildsSboxes := by
  intro s hp ht
  refine ⟨builtSbox, (step_of_engine ht).trans (engineStep_of_init (s := s.taken) hp), fun k row i hrow => ?_⟩
  rw [State.sboxAt_of_built rfl, sboxEntry_of_row k (sboxRow_eq_iff.mpr hrow), sboxCol]

/-! PERM32 and SBOXRD (O15, O16). -/

theorem exec_perm32 (s : State) : exec .perm32 s = .next (s.diagnose (some (perm32 s.opa))) := rfl

theorem exec_sboxrd (s : State) :
    exec .sboxrd s = .next (s.diagnose (s.sboxrdOperands.map fun x => s.sboxAt x.1 x.2)) := rfl

/-- The operands of SBOXRD are there exactly when OPA[31:12] = 0 (R156). -/
theorem State.sboxrdOperands_eq (s : State) :
    s.sboxrdOperands =
      if s.opa.extractLsb' 12 20 = 0 then some ((s.opa.extractLsb' 10 2).toFin, s.opa.extractLsb' 0 10) else none := by
  rw [State.sboxrdOperands, lowField_eq 12 20 s.opa rfl]
  split_ifs
  · simp only [BitVec.extractLsb'_extractLsb'_of_le (start := 10) (len := 2) (len' := 12) (by decide),
      BitVec.extractLsb'_extractLsb'_of_le (start := 0) (len := 10) (len' := 12) (by decide)]
  · rfl

/-- Settles O15: the operand is always there. -/
theorem perm32Result : Obligations.Perm32Result := fun s => by
  rw [exec_perm32]
  rfl

/-- Settles O16: the command by whether its operands are there, and the table of the invariant. -/
theorem sboxrdResult : Obligations.SboxrdResult := by
  intro s k
  rw [exec_sboxrd, State.sboxrdOperands_eq]
  refine ⟨fun h hk => ⟨?_, fun hs hr => State.sboxAt_of_built (hs.sbox_built hr) k _⟩, fun h => ?_⟩
  · obtain rfl : k = (s.opa.extractLsb' 10 2).toFin := Fin.ext hk
    rw [if_pos h]
    rfl
  · rw [if_neg h]
    rfl

end Sys2Proof.Machine

namespace Sys2Proof.Machine

/-! KEYSET and ZEROIZE (O18, O19). -/

section KeyCommands

variable {s : State}

/-- What LEVEL selects, in the words of R172. -/
theorem levelParams_eq (lvl : Int) : levelParams lvl = (sizeForLevel lvl, roundsForLevel lvl) :=
  Prod.ext (levelParams_fst lvl) (levelParams_snd lvl)

/-- The level is checked first (R182). -/
theorem State.keysetCheck_of_level_gt (h : s.params.nmax < s.level.toInt) : s.keysetCheck = .levelRange := if_pos h

theorem State.keysetCheck_of_keylen_ne (hl : s.level.toInt ≤ s.params.nmax)
    (hk : s.keylen.toNat ≠ 8 * (levelParams s.level.toInt).1) : s.keysetCheck = .badKeylen := by
  rw [State.keysetCheck, if_neg (not_lt.mpr hl), if_pos hk]

theorem exec_keyset_of_error {c : ErrCode} (h : s.keysetCheck = c) (hc : c ≠ .ok) :
    exec .keyset s = .next (s.complete c) := by
  obtain ⟨-, e⟩ | ⟨hok, -⟩ := execKeyset_cases s
  · rw [← h]
    exact e
  · exact absurd (h.symm.trans hok) hc

theorem exec_keyset_of_ok (h : s.keysetCheck = .ok) :
    exec .keyset s =
      .next ((s.loadKey (sizeForLevel s.level.toInt) (roundsForLevel s.level.toInt)).complete .ok) := by
  obtain ⟨hne, -⟩ | ⟨-, e⟩ := execKeyset_cases s
  · exact absurd h hne
  · rw [levelParams_eq] at e
    exact e

/-- A loaded SCHED has the schedule's entries below `rounds` (R182). -/
theorem loadedSched_getElem?_of_lt {nmax rounds r : Nat} {S : List SubKey} (hS : S.length = rounds)
    (hle : rounds ≤ 16 * nmax) (hr : r < rounds) : (loadedSched nmax S rounds)[r]? = S[r]? := by
  have hidx : r < S.length := by omega
  simp [loadedSched, show r < 16 * nmax by omega, hr, hidx]

/-- A loaded SCHED has (0, 0, 0) from `rounds` on (R183). -/
theorem loadedSched_getElem?_of_ge {nmax rounds r : Nat} (S : List SubKey) (hle : rounds ≤ r) (hr : r < 16 * nmax) :
    (loadedSched nmax S rounds)[r]? = some SubKey.zero := by
  simp [loadedSched, hr, not_lt.mpr hle]

theorem roundsForLevel_le {p : Params} {lvl : Int} (h : lvl ≤ p.nmax) : roundsForLevel lvl ≤ 16 * p.nmax := by
  have := p.one_le_nmax
  rw [roundsForLevel]
  split <;> omega

theorem State.validate_of_keyvalid_eq_false (h : s.keyvalid = false) : s.validate = .noKey := if_pos h

/-- Without a key neither ENCRYPT nor DECRYPT does more than complete (R225). -/
theorem State.runCipher_of_keyvalid_eq_false (h : s.keyvalid = false) (fn : Word × Word → Word × Word) :
    s.runCipher fn = s.complete .noKey := by
  rw [State.runCipher, State.validate_of_keyvalid_eq_false h]

end KeyCommands

/-- Settles O18: the command by its check, and SCHED entry by entry. -/
theorem keysetLoadsSchedule : Obligations.KeysetLoadsSchedule := by
  rintro s lvl rfl
  have hsize : (levelParams s.level.toInt).1 = sizeForLevel s.level.toInt := levelParams_fst _
  refine ⟨fun hl hk => ⟨_, exec_keyset_of_ok (State.keysetCheck_eq_ok.mpr ⟨hl, hsize ▸ hk⟩), loadedSched_length _ _ _,
      fun r hr => ?_, fun r => loadedSched_getElem?_of_ge _⟩,
    fun hl => exec_keyset_of_error (State.keysetCheck_of_level_gt hl) (by decide),
    fun hl hk => exec_keyset_of_error (State.keysetCheck_of_keylen_ne hl (hsize ▸ hk)) (by decide)⟩
  have hlen := keySchedule_length s.keyByte (sizeForLevel s.level.toInt) (roundsForLevel s.level.toInt)
  rw [State.loadKey_sched, loadedSched_getElem?_of_lt hlen (roundsForLevel_le hl) hr]
  exact ⟨rfl, by rw [ne_eq, List.getElem?_eq_none_iff, hlen]; omega⟩

/-- Settles O19: KEY lists nothing, SCHED is all zeros, and KEYVALID is 0. -/
theorem zeroizeErasesKeys : Obligations.ZeroizeErasesKeys := fun s =>
  ⟨[], _, s.eraseKey.complete .ok, rfl, rfl, fun _ => rfl, List.length_replicate, State.schedAt_of_replicate rfl,
    congrArg _ (State.runCipher_of_keyvalid_eq_false rfl _), congrArg _ (State.runCipher_of_keyvalid_eq_false rfl _)⟩

/-! The entries of a schedule (O32, O33). -/

section Schedule

/-- Entries that fill the list replace it. -/
theorem putEntries_of_length_eq {S es : List SubKey} (h : es.length = S.length) : putEntries S 0 es = es := by
  refine List.ext_getElem? fun r => ?_
  rw [putEntries_getElem? S 0 es (by omega)]
  split_ifs with hr
  · rfl
  · rw [List.getElem?_eq_none (by omega), List.getElem?_eq_none (by omega)]

theorem keySchedule_thin (key : Nat → Byte) : keySchedule key 1 8 = thinEntries key := by
  rw [keySchedule, if_pos rfl]
  exact putEntries_of_length_eq (by rw [thinEntries, expand8_length, List.length_replicate]; rfl)

theorem keySchedule_general (key : Nat → Byte) (N : Nat) :
    keySchedule key N (16 * N) =
      (List.range N).foldl (scheduleBlock key (16 * N)) (List.replicate (16 * N) SubKey.zero) := by
  rw [keySchedule, if_neg (by omega)]

variable (key : Nat → Byte) {N i : Nat} {S : List SubKey}

theorem blockEntries_fst_length : (blockEntries key i).1.length = 8 := expand8_length _ _

theorem blockEntries_snd_length : (blockEntries key i).2.length = 8 := expand8_length _ _

/-- The two ranges that a key block writes (R177); they do not meet, and every other entry is as before. -/
theorem scheduleBlock_getElem? (hS : S.length = 16 * N) (hi : i < N) (r : Nat) :
    (scheduleBlock key (16 * N) S i)[r]? =
      if 16 * N - 8 - 8 * i ≤ r ∧ r < 16 * N - 8 * i then (blockEntries key i).2[r - (16 * N - 8 - 8 * i)]?
      else if 8 * i ≤ r ∧ r < 8 * i + 8 then (blockEntries key i).1[r - 8 * i]?
      else S[r]? := by
  have hfwd := blockEntries_fst_length key (i := i)
  have hmir := blockEntries_snd_length key (i := i)
  rw [scheduleBlock, putEntries_getElem? _ _ _ (by rw [putEntries_length]; omega), putEntries_getElem? _ _ _ (by omega),
    hfwd, hmir, show 16 * N - 8 - 8 * i + 8 = 16 * N - 8 * i by omega]

/-- After the first `n` key blocks, the entries of each stand in their two places (R178). -/
theorem scheduleBlocks_getElem? (hS : S.length = 16 * N) {n : Nat} (hn : n ≤ N) {e : Nat} (he : e < 8) (hi : i < n) :
    ((List.range n).foldl (scheduleBlock key (16 * N)) S)[8 * i + e]? = (blockEntries key i).1[e]? ∧
    ((List.range n).foldl (scheduleBlock key (16 * N)) S)[16 * N - 8 - 8 * i + e]? = (blockEntries key i).2[e]? := by
  induction n with
  | zero => omega
  | succ n ih =>
    have hlen := (scheduleBlocks_length key (16 * N) S n).trans hS
    simp only [List.range_succ, List.foldl_append, List.foldl_cons, List.foldl_nil,
      scheduleBlock_getElem? key hlen (show n < N by omega)]
    obtain hlt | rfl := Nat.lt_succ_iff_lt_or_eq.mp hi
    · obtain ⟨hfwd, hmir⟩ := ih (by omega) hlt
      rw [if_neg (by omega), if_neg (by omega), if_neg (by omega), if_neg (by omega)]
      exact ⟨hfwd, hmir⟩
    · rw [if_neg (by omega), if_pos (by omega), if_pos (by omega), Nat.add_sub_cancel_left, Nat.add_sub_cancel_left]
      exact ⟨rfl, rfl⟩

end Schedule

/-- Settles O32: the thin schedule is one expansion, and the general one is filled block by block. -/
theorem scheduleEntriesCovered : Obligations.ScheduleEntriesCovered := by
  refine fun key => ⟨keySchedule_thin key, fun N _ => ⟨keySchedule_length key N _, fun i e hi he => ?_⟩⟩
  rw [keySchedule_general]
  exact scheduleBlocks_getElem? key List.length_replicate le_rfl he hi

/-- Settles O33: entry r < 8 of both schedules is entry r of key block 0's forward expansion. -/
theorem thinScheduleIsPrefix : Obligations.ThinScheduleIsPrefix := by
  intro key
  obtain ⟨hthin, hgeneral⟩ := scheduleEntriesCovered key
  obtain ⟨-, hentry⟩ := hgeneral 1 le_rfl
  refine List.ext_getElem? fun r => ?_
  rw [List.getElem?_take]
  split_ifs with hr
  · have hfwd := (hentry 0 r one_pos hr).1
    rw [Nat.mul_zero, Nat.zero_add] at hfwd
    exact (congrArg (·[r]?) hthin).trans hfwd.symm
  · exact List.getElem?_eq_none (by rw [keySchedule_length]; omega)

/-! The bits of a schedule entry (O31). -/

section EntryBits

/-- What BitStep does to its key word: a rotation right by one place, the bit that comes round complemented (R173). -/
def rotateNot (v : KeyWord) : KeyWord := (v >>> 1) ||| ((v.extractLsb' 0 1 ^^^ 1).setWidth 16 <<< 15)

theorem rotateNot_getLsbD (v : KeyWord) {n : Nat} (hn : n < 16) :
    (rotateNot v).getLsbD n = if n = 15 then !v.getLsbD 0 else v.getLsbD (n + 1) := by
  rw [rotateNot, BitVec.getLsbD_or, BitVec.getLsbD_ushiftRight, BitVec.getLsbD_shiftLeft, decide_eq_true hn]
  split_ifs with h
  · subst h
    simp
  · rw [decide_eq_true (show n < 15 by omega), Nat.add_comm]
    simp

/-- After `j` rotations the low bits have moved down by `j`, and above them stand the complements of those that came round. -/
theorem rotateNot_iterate_getLsbD (v : KeyWord) {j n : Nat} (hj : j ≤ 16) (hn : n < 16) :
    (rotateNot^[j] v).getLsbD n = if n + j < 16 then v.getLsbD (n + j) else !v.getLsbD (n + j - 16) := by
  induction j generalizing n with
  | zero => exact (if_pos hn).symm
  | succ j ih =>
    rw [Function.iterate_succ_apply', rotateNot_getLsbD _ hn]
    by_cases h : n = 15
    · rw [if_pos h, ih (by omega) (by omega), if_pos (by omega), if_neg (by omega)]
      congr 2
      omega
    · rw [if_neg h, ih (by omega) (by omega), Nat.add_assoc, Nat.add_comm 1 j]

theorem bitStep_fst_getElem (kb : KeyBuf) (w u : Fin 4) (acc : SubWord) :
    (bitStep kb w acc).1[u] = if u = w then rotateNot kb[w] else kb[u] := by
  split_ifs with h
  · subst h
    exact Vector.getElem_set_self _
  · exact Vector.getElem_set_ne w.isLt u.isLt fun hval => h (Fin.ext hval.symm)

theorem bitStep_snd_getLsbD (kb : KeyBuf) (w : Fin 4) (acc : SubWord) {n : Nat} (hn : n < 20) :
    (bitStep kb w acc).2.getLsbD n = if n = 0 then kb[w].getLsbD 0 else acc.getLsbD (n - 1) := by
  rw [bitStep, BitVec.getLsbD_or, BitVec.getLsbD_shiftLeft, decide_eq_true hn]
  split_ifs with h
  · subst h
    simp
  · rw [decide_eq_false (show ¬ n < 1 by omega)]
    simp [h]

theorem SubKey.get_set_self (sk : SubKey) (j : Nat) (v : SubWord) : (sk.set j v).get j = v := by
  rcases j with _ | _ | _ <;> rfl

theorem SubKey.get_set_of_ne (sk : SubKey) (v : SubWord) {c j : Nat} (hc : c < 3) (hj : j < 3) (h : c ≠ j) :
    (sk.set j v).get c = sk.get c := by
  interval_cases c <;> interval_cases j <;> trivial

/-- The key word of sub-step `k`, counted from the rotation index on (R173). -/
def wordFrom (kb : KeyBuf) (kr : Fin 4) (k : Nat) : KeyWord := kb[Fin.ofNat 4 (kr.val + k)]

theorem wordFrom_congr (kb : KeyBuf) (kr : Fin 4) {k l : Nat} (h : k % 4 = l % 4) :
    wordFrom kb kr k = wordFrom kb kr l := by
  have hw : Fin.ofNat 4 (kr.val + k) = Fin.ofNat 4 (kr.val + l) := Fin.ext (Nat.ModEq.add_left kr.val h)
  exact congrArg (kb[·]) hw

/-- Each word is that of one of the four sub-steps. -/
theorem exists_ofNat_eq (kr w : Fin 4) : ∃ k < 4, Fin.ofNat 4 (kr.val + k) = w := by decide +revert

variable (kr : Fin 4) (x : KeyBuf × SubKey) (j : Nat)

/-- A sub-step rotates its own word only. -/
theorem subStep_wordFrom {k m : Nat} (hk : k < 4) (hm : m < 4) :
    wordFrom (subStep kr j x m).1 kr k =
      if k = m then rotateNot (wordFrom x.1 kr m) else wordFrom x.1 kr k := by
  have hiff : Fin.ofNat 4 (kr.val + k) = Fin.ofNat 4 (kr.val + m) ↔ k = m := by
    simp only [Fin.ext_iff, Fin.val_ofNat]
    omega
  simp only [subStep, wordFrom, bitStep_fst_getElem, hiff]

/-- A sub-step moves its word's lowest bit into the accumulator of the iteration. -/
theorem subStep_acc (m : Nat) {n : Nat} (hn : n < 20) :
    ((subStep kr j x m).2.get (j % 3)).getLsbD n =
      if n = 0 then (wordFrom x.1 kr m).getLsbD 0 else (x.2.get (j % 3)).getLsbD (n - 1) := by
  rw [subStep, SubKey.get_set_self, bitStep_snd_getLsbD _ _ _ hn, wordFrom]

theorem subStep_get_of_ne {c : Nat} (hc : c < 3) (h : c ≠ j % 3) (m : Nat) : (subStep kr j x m).2.get c = x.2.get c :=
  SubKey.get_set_of_ne _ _ hc (Nat.mod_lt j (by decide)) h

theorem iteration_eq_subSteps :
    iteration kr x j = subStep kr j (subStep kr j (subStep kr j (subStep kr j x 0) 1) 2) 3 := rfl

/-- An iteration rotates every word once. -/
theorem iteration_fst_getElem (w : Fin 4) : (iteration kr x j).1[w] = rotateNot x.1[w] := by
  obtain ⟨k, hk, rfl⟩ := exists_ofNat_eq kr w
  show wordFrom (iteration kr x j).1 kr k = rotateNot (wordFrom x.1 kr k)
  interval_cases k <;> simp [iteration_eq_subSteps, subStep_wordFrom]

/-- The four bits that an iteration adds, the first one highest. -/
theorem iteration_acc_new {k : Nat} (hk : k < 4) :
    ((iteration kr x j).2.get (j % 3)).getLsbD (3 - k) = (wordFrom x.1 kr k).getLsbD 0 := by
  interval_cases k <;> simp [-BitVec.getLsbD_eq_getElem, iteration_eq_subSteps, subStep_acc, subStep_wordFrom]

theorem iteration_acc_old {n : Nat} (hn : n + 4 < 20) :
    ((iteration kr x j).2.get (j % 3)).getLsbD (n + 4) = (x.2.get (j % 3)).getLsbD n := by
  rw [iteration_eq_subSteps, subStep_acc _ _ _ _ hn, subStep_acc _ _ _ _ (by omega), subStep_acc _ _ _ _ (by omega),
    subStep_acc _ _ _ _ (by omega)]
  simp

theorem iteration_get_of_ne {c : Nat} (hc : c < 3) (h : c ≠ j % 3) : (iteration kr x j).2.get c = x.2.get c := by
  simp only [iteration_eq_subSteps, subStep_get_of_ne _ _ _ hc h]

/-- The buffer and the accumulators of an entry after `m` iterations (R174). -/
def iterations (kb : KeyBuf) (kr : Fin 4) (m : Nat) : KeyBuf × SubKey :=
  (List.range m).foldl (iteration kr) (kb, SubKey.zero)

variable (kb : KeyBuf)

theorem iterations_succ (m : Nat) : iterations kb kr (m + 1) = iteration kr (iterations kb kr m) m := by
  rw [iterations, List.range_succ, List.foldl_append]
  rfl

theorem iterations_fst_getElem (m : Nat) (w : Fin 4) : (iterations kb kr m).1[w] = rotateNot^[m] kb[w] := by
  induction m with
  | zero => rfl
  | succ m ih => rw [iterations_succ, iteration_fst_getElem, ih, Function.iterate_succ_apply']

/-- Of the first `m` iterations `(m + 2 - c) / 3` are accumulator `c`'s, with four bits each. Its bit `p`, counted from the
first one it took, is bit `3 * (p / 4) + c` of word `kr + p` (R175). -/
theorem iterations_acc {m c p : Nat} (hm : m ≤ 15) (hc : c < 3) (hp : 3 * (p / 4) + c < m) :
    ((iterations kb kr m).2.get c).getLsbD (4 * ((m + 2 - c) / 3) - 1 - p) =
      (wordFrom kb kr p).getLsbD (3 * (p / 4) + c) := by
  induction m with
  | zero => omega
  | succ m ih =>
    rw [iterations_succ]
    by_cases hcm : c = m % 3
    · obtain hlt | heq : 3 * (p / 4) + c < m ∨ 3 * (p / 4) + c = m := by omega
      · rw [← ih (by omega) hlt, hcm, ← iteration_acc_old kr (iterations kb kr m) m (by omega)]
        congr 1
        omega
      · have hbit : 4 * ((m + 1 + 2 - c) / 3) - 1 - p = 3 - p % 4 := by omega
        rw [hbit, hcm, iteration_acc_new _ _ _ (Nat.mod_lt p (by decide)), ← hcm, heq,
          wordFrom_congr kb kr (Nat.mod_mod p 4).symm, wordFrom, iterations_fst_getElem,
          rotateNot_iterate_getLsbD _ (by omega) (by decide), if_pos (by omega), Nat.zero_add, wordFrom]
    · rw [iteration_get_of_ne _ _ _ hc hcm, ← ih (by omega) (by omega)]
      congr 2
      omega

theorem expandEntry_eq_iterations : expandEntry kb kr = iterations kb kr 15 := rfl

/-- The bits of an entry (R175). -/
theorem expandEntry_snd_getLsbD {c n : Nat} (hc : c < 3) (hn : n < 20) :
    ((expandEntry kb kr).2.get c).getLsbD n = (wordFrom kb kr (19 - n)).getLsbD (3 * ((19 - n) / 4) + c) := by
  rw [expandEntry_eq_iterations, ← iterations_acc kr kb le_rfl hc (by omega)]
  congr 1
  omega

/-- The buffer that an entry leaves (R175): each word fifteen rotations on, one place up. -/
theorem expandEntry_fst_getLsbD (w : Fin 4) {n : Nat} (hn : n < 16) :
    ((expandEntry kb kr).1[w]).getLsbD n = if n = 0 then kb[w].getLsbD 15 else !(kb[w].getLsbD (n - 1)) := by
  rw [expandEntry_eq_iterations, iterations_fst_getElem, rotateNot_iterate_getLsbD _ (by decide) hn]
  split_ifs with hlt h0 h0
  · rw [h0]
  · omega
  · omega
  · rfl

/-- The buffer that one entry for each index of `rot` leaves (R174). -/
def bufferAfter (kb : KeyBuf) (rot : List (Fin 4)) : KeyBuf := rot.foldl (fun b x => (expandEntry b x).1) kb

theorem bufferAfter_cons (rot : List (Fin 4)) :
    bufferAfter kb (kr :: rot) = bufferAfter (expandEntry kb kr).1 rot := by
  rw [bufferAfter, List.foldl_cons, bufferAfter]

theorem expand8_fst (rot : List (Fin 4)) : (expand8 kb rot).1 = bufferAfter kb rot := by
  induction rot generalizing kb with
  | nil => rfl
  | cons kr rot ih => rw [expand8, ih, bufferAfter_cons]

theorem expand8_snd_getElem? (rot : List (Fin 4)) (e : Nat) :
    (expand8 kb rot).2[e]? = rot[e]?.map fun kr => (expandEntry (bufferAfter kb (rot.take e)) kr).2 := by
  induction rot generalizing kb e with
  | nil => rfl
  | cons kr rot ih =>
    cases e with
    | zero => rfl
    | succ e => rw [expand8, List.getElem?_cons_succ, ih, List.getElem?_cons_succ, List.take_succ_cons, bufferAfter_cons]

end EntryBits

/-- Settles O31: an entry is 15 iterations, each of which rotates every key word by one place and adds four bits. -/
theorem scheduleEntryBits : Obligations.ScheduleEntryBits := fun kb kr =>
  ⟨fun _ _ hc hn => expandEntry_snd_getLsbD kr kb hc hn, fun w _ hn => expandEntry_fst_getLsbD kr kb w hn,
    fun _ _ j => Vector.getElem_ofFn j.isLt,
    fun rot => ⟨expand8_fst kb rot, expand8_length kb rot, expand8_snd_getElem? kb rot⟩, rfl, rfl⟩

end Sys2Proof.Machine

namespace Sys2Proof.Machine

/-! ROUNDF (O17). -/

theorem exec_roundf (s : State) :
    exec .roundf s = .next (s.diagnose (s.roundfOperands.map fun x => roundF s.sboxAt x.1 x.2)) := rfl

/-- The operands of ROUNDF are there exactly when bits 31 to 20 of the three subkey registers are 0 (R206). -/
theorem State.roundfOperands_eq (s : State) :
    s.roundfOperands =
      if s.opb.extractLsb' 20 12 = 0 ∧ s.opc.extractLsb' 20 12 = 0 ∧ s.opd.extractLsb' 20 12 = 0
      then some (s.opa, ⟨s.opb.extractLsb' 0 20, s.opc.extractLsb' 0 20, s.opd.extractLsb' 0 20⟩) else none := by
  rw [State.roundfOperands, lowField_eq 20 12 s.opb rfl, lowField_eq 20 12 s.opc rfl, lowField_eq 20 12 s.opd rfl]
  by_cases h : s.opb.extractLsb' 20 12 = 0 ∧ s.opc.extractLsb' 20 12 = 0 ∧ s.opd.extractLsb' 20 12 = 0
  · obtain ⟨hb, hc, hd⟩ := h
    rw [if_pos hb, if_pos hc, if_pos hd, if_pos ⟨hb, hc, hd⟩]
  · rw [if_neg h]
    split
    · rename_i hb hc hd
      rw [Option.ite_none_right_eq_some] at hb hc hd
      exact absurd ⟨hb.1, hc.1, hd.1⟩ h
    · rfl

/-- Settles O17: the command by whether its operands are there. -/
theorem roundfResult : Obligations.RoundfResult := by
  intro s
  rw [exec_roundf, State.roundfOperands_eq]
  refine ⟨fun h => by rw [if_pos h]; rfl, fun h => ?_⟩
  simp only [ne_eq, ← not_and_or] at h
  rw [if_neg h]
  rfl

/-! The inputs of the round function's S-boxes, bit by bit (R200 to R204). -/

section RoundInputs

variable (p : Word) (sk : SubKey)

/-- Bit `n` of the left expansion by the field of R200 it stands in. -/
theorem expandLeft_getLsbD {n : Nat} (hn : n < 20) :
    (expandLeft p).getLsbD n =
      if n < 10 then p.getLsbD (16 + n) else if n < 18 then p.getLsbD (14 + n) else p.getLsbD (n - 18) := by
  rw [expandLeft, BitVec.getLsbD_append, BitVec.getLsbD_append]
  simp only [BitVec.getLsbD_extractLsb']
  by_cases h10 : n < 10
  · simp [h10]
  by_cases h18 : n < 18
  · have hlt : n - 10 < 8 := by omega
    have hbit : 24 + (n - 10) = 14 + n := by omega
    simp [h10, h18, hlt, hbit]
  · have hge : ¬ n - 10 < 8 := by omega
    have hlt : n - 18 < 2 := by omega
    simp [h10, h18, hge, Nat.sub_sub, hlt]

/-- Bit `n` of the right expansion by the field of R201 it stands in. -/
theorem expandRight_getLsbD {n : Nat} (hn : n < 20) :
    (expandRight p).getLsbD n = if n < 10 then p.getLsbD n else p.getLsbD (n - 2) := by
  rw [expandRight, BitVec.getLsbD_append]
  simp only [BitVec.getLsbD_extractLsb']
  by_cases h10 : n < 10
  · simp [h10]
  · have hlt : n - 10 < 10 := by omega
    have hbit : 8 + (n - 10) = n - 2 := by omega
    simp [h10, hlt, hbit]

/-- A salt bit that is 1 takes the other side's bit (R203). -/
theorem saltSwap_fst_getLsbD (tl tr salt : SubWord) (n : Nat) :
    (saltSwap tl tr salt).1.getLsbD n = if salt.getLsbD n then tr.getLsbD n else tl.getLsbD n := by
  simp only [saltSwap, BitVec.getLsbD_xor, BitVec.getLsbD_and]
  cases salt.getLsbD n
  · simp
  · cases tl.getLsbD n <;> simp

/-- The two sides of the swap are one formula (R203). -/
theorem saltSwap_snd (tl tr salt : SubWord) : (saltSwap tl tr salt).2 = (saltSwap tr tl salt).1 := by
  simp only [saltSwap, BitVec.xor_comm tl tr]

theorem roundLeft_getLsbD (n : Nat) :
    (roundLeft p sk).getLsbD n =
      ((if sk.sk2.getLsbD n then (expandRight p).getLsbD n else (expandLeft p).getLsbD n) ^^ sk.sk0.getLsbD n) := by
  rw [roundLeft, BitVec.getLsbD_xor, saltSwap_fst_getLsbD]

theorem roundRight_getLsbD (n : Nat) :
    (roundRight p sk).getLsbD n =
      ((if sk.sk2.getLsbD n then (expandLeft p).getLsbD n else (expandRight p).getLsbD n) ^^ sk.sk1.getLsbD n) := by
  rw [roundRight, BitVec.getLsbD_xor, saltSwap_snd, saltSwap_fst_getLsbD]

end RoundInputs

/-- Settles O30: the expansions by their fields, and the sides of a round by the salt's swap and the subkey's XOR. -/
theorem roundInputsBitByBit : Obligations.RoundInputsBitByBit := by
  intro p sk n hn
  have hl := expandLeft_getLsbD p hn
  have hr := expandRight_getLsbD p hn
  refine ⟨hl, hr, ?_, ?_⟩
  · rw [roundLeft_getLsbD, hl, hr]
  · rw [roundRight_getLsbD, hl, hr]

end Sys2Proof.Machine

namespace Sys2Proof.Machine

/-! The half-rounds of a block (R220, R221, R222). -/

section Rounds

variable (f : Word → SubKey → Word) (sched : Nat → SubKey)

/-- Two half-rounds in order, the second on the left word the first has just made (R220). -/
def halfRounds (k₀ k₁ : SubKey) (x : Word × Word) : Word × Word :=
  (x.1 ^^^ f x.2 k₀, x.2 ^^^ f (x.1 ^^^ f x.2 k₀) k₁)

theorem encryptRounds_succ (n i : Nat) (x : Word × Word) :
    encryptRounds f sched (n + 1) i x = encryptRounds f sched n (i + 2) (halfRounds f (sched i) (sched (i + 1)) x) := rfl

theorem decryptRounds_succ (n i : Nat) (x : Word × Word) :
    decryptRounds f sched (n + 1) i x = decryptRounds f sched n (i - 2) (halfRounds f (sched i) (sched (i - 1)) x) := rfl

/-- The last pair of the loop instead of the first: `n` pairs from round `i` end before round `i + 2n`. -/
theorem encryptRounds_succ_last (n i : Nat) (x : Word × Word) :
    encryptRounds f sched (n + 1) i x =
      halfRounds f (sched (i + 2 * n)) (sched (i + 2 * n + 1)) (encryptRounds f sched n i x) := by
  induction n generalizing i x with
  | zero => rfl
  | succ n ih => rw [encryptRounds_succ, ih, encryptRounds_succ, show i + 2 + 2 * n = i + 2 * (n + 1) by omega]

/-- The loop of R221 is the loop of R220 under the schedule read backwards from entry `m`. -/
theorem decryptRounds_eq_encryptRounds (m n i : Nat) (x : Word × Word) :
    decryptRounds f sched n (m - i) x = encryptRounds f (fun r => sched (m - r)) n i x := by
  induction n generalizing i x with
  | zero => rfl
  | succ n ih => rw [decryptRounds_succ, encryptRounds_succ, Nat.sub_sub, Nat.sub_sub, ih]

theorem decryptBlock_eq_encryptBlock (rounds : Nat) (b : Word × Word) :
    decryptBlock f sched rounds b = encryptBlock f (fun r => sched (rounds - 1 - r)) rounds b :=
  congrArg Prod.swap (decryptRounds_eq_encryptRounds f sched (rounds - 1) (rounds / 2) 0 b)

variable {f sched}

/-- The swap between the two directions lets a pair of half-rounds undo itself with its keys exchanged (R222). -/
theorem halfRounds_swap_halfRounds (k₀ k₁ : SubKey) (x : Word × Word) :
    halfRounds f k₁ k₀ (halfRounds f k₀ k₁ x).swap = x.swap := by
  simp [halfRounds, Prod.swap]

theorem decryptRounds_swap_encryptRounds (n : Nat) (x : Word × Word) :
    decryptRounds f sched n (2 * n - 1) (encryptRounds f sched n 0 x).swap = x.swap := by
  induction n with
  | zero => rfl
  | succ n ih =>
    rw [encryptRounds_succ_last, Nat.zero_add, decryptRounds_succ, show 2 * (n + 1) - 1 = 2 * n + 1 by omega,
      Nat.add_sub_cancel, halfRounds_swap_halfRounds]
    exact ih

/-- R222, the first half. -/
theorem decryptBlock_encryptBlock {rounds : Nat} (h : rounds % 2 = 0) (b : Word × Word) :
    decryptBlock f sched rounds (encryptBlock f sched rounds b) = b := by
  have undo := decryptRounds_swap_encryptRounds (f := f) (sched := sched) (rounds / 2) b
  rw [show 2 * (rounds / 2) = rounds by omega] at undo
  exact congrArg Prod.swap undo

theorem encryptRounds_congr {sched' : Nat → SubKey} {n i : Nat} (h : ∀ r, r < i + 2 * n → sched r = sched' r)
    (x : Word × Word) : encryptRounds f sched n i x = encryptRounds f sched' n i x := by
  induction n generalizing i x with
  | zero => rfl
  | succ n ih =>
    rw [encryptRounds_succ, encryptRounds_succ, h i (by omega), h (i + 1) (by omega), ih fun r hr => h r (by omega)]

/-- A block's encryption uses the entries below ROUNDS only. -/
theorem encryptBlock_congr {sched' : Nat → SubKey} {rounds : Nat} (h : ∀ r, r < rounds → sched r = sched' r)
    (b : Word × Word) : encryptBlock f sched rounds b = encryptBlock f sched' rounds b :=
  congrArg Prod.swap (encryptRounds_congr (fun r hr => h r (by omega)) b)

theorem decryptBlock_congr {sched' : Nat → SubKey} {rounds : Nat} (h : ∀ r, r < rounds → sched r = sched' r)
    (b : Word × Word) : decryptBlock f sched rounds b = decryptBlock f sched' rounds b := by
  rw [decryptBlock_eq_encryptBlock, decryptBlock_eq_encryptBlock]
  exact encryptBlock_congr (fun r hr => h _ (by omega)) b

/-- R222, the second half: it is the first under the schedule read backwards. -/
theorem encryptBlock_decryptBlock {rounds : Nat} (h : rounds % 2 = 0) (b : Word × Word) :
    encryptBlock f sched rounds (decryptBlock f sched rounds b) = b := by
  have twice : ∀ r, r < rounds → sched r = sched (rounds - 1 - (rounds - 1 - r)) := fun r hr =>
    congrArg sched (by omega)
  rw [encryptBlock_congr twice, decryptBlock_eq_encryptBlock,
    ← decryptBlock_eq_encryptBlock f (fun r => sched (rounds - 1 - r)), decryptBlock_encryptBlock h]

/-- The two words after each pair of half-rounds of R220. -/
theorem encryptBlock_followsRounds (rounds : Nat) (b : Word × Word) :
    ∃ L R : Nat → Word, L 0 = b.1 ∧ R 0 = b.2 ∧
      (∀ j, L (j + 1) = L j ^^^ f (R j) (sched (2 * j)) ∧ R (j + 1) = R j ^^^ f (L (j + 1)) (sched (2 * j + 1))) ∧
      encryptBlock f sched rounds b = (R (rounds / 2), L (rounds / 2)) := by
  refine ⟨fun j => (encryptRounds f sched j 0 b).1, fun j => (encryptRounds f sched j 0 b).2, rfl, rfl,
    fun j => ?_, rfl⟩
  beta_reduce
  rw [encryptRounds_succ_last, Nat.zero_add]
  exact ⟨rfl, rfl⟩

end Rounds

/-- Settles O34: the words after each pair of half-rounds; decryption is encryption under the schedule read backwards. -/
theorem blockFollowsRounds : Obligations.BlockFollowsRounds := by
  intro f sched rounds b _
  refine ⟨?_, ?_⟩
  · obtain ⟨L, R, hL, hR, hstep, hout⟩ := encryptBlock_followsRounds (f := f) (sched := sched) rounds b
    exact ⟨L, R, hL, hR, fun j _ => hstep j, hout⟩
  · obtain ⟨L, R, hL, hR, hstep, hout⟩ :=
      encryptBlock_followsRounds (f := f) (sched := fun r => sched (rounds - 1 - r)) rounds b
    refine ⟨L, R, hL, hR, fun j _ => ?_, (decryptBlock_eq_encryptBlock f sched rounds b).trans hout⟩
    rw [show rounds - 2 - 2 * j = rounds - 1 - (2 * j + 1) by omega]
    exact hstep j

/-! BUF by blocks (R223). -/

section Blocks

variable {s t : State}

/-- Block `b` of BUF as its two words (R67, R223). -/
def State.block (s : State) (b : Nat) : Word × Word := (s.memRead (8 * b), s.memRead (8 * b + 4))

theorem State.byteOf_memRead (s : State) (a : Nat) {i : Nat} (hi : i < 4) : byteOf (s.memRead a) i = s.bufByte (a + i) := by
  obtain ⟨h0, h1, h2, h3⟩ := byteOf_wordOf (s.bufByte a) (s.bufByte (a + 1)) (s.bufByte (a + 2)) (s.bufByte (a + 3))
  match i with
  | 0 => exact h0
  | 1 => exact h1
  | 2 => exact h2
  | 3 => exact h3

theorem State.bufByte_eq_of_memRead_eq {a i : Nat} (h : s.memRead a = t.memRead a) (hi : i < 4) :
    s.bufByte (a + i) = t.bufByte (a + i) := by
  rw [← s.byteOf_memRead a hi, h, t.byteOf_memRead a hi]

/-- A block's two words hold all of its bytes. -/
theorem State.bufByte_eq_of_block_eq {a : Nat} (h : s.block (a / 8) = t.block (a / 8)) : s.bufByte a = t.bufByte a := by
  obtain ⟨hleft, hright⟩ := Prod.ext_iff.mp h
  by_cases ha : a % 8 < 4
  · have := State.bufByte_eq_of_memRead_eq hleft ha
    rwa [Nat.div_add_mod] at this
  · have := State.bufByte_eq_of_memRead_eq hright (show a % 8 - 4 < 4 by omega)
    rwa [show 8 * (a / 8) + 4 + (a % 8 - 4) = a by omega] at this

theorem State.block_congr {b : Nat} (h : ∀ a, a < 8 * b + 8 → s.bufByte a = t.bufByte a) : s.block b = t.block b := by
  have word : ∀ a, a + 3 < 8 * b + 8 → s.memRead a = t.memRead a := fun a ha => by
    rw [State.memRead, h a (by omega), h (a + 1) (by omega), h (a + 2) (by omega), h (a + 3) ha, State.memRead]
  rw [State.block, word _ (by omega), word _ (by omega), State.block]

end Blocks

/-! What ENCRYPT and DECRYPT answer, for any function of blocks (R223, R225). -/

section RunCipher

variable {s : State} {fn : Word × Word → Word × Word}

theorem exec_encrypt (s : State) : exec .encrypt s = .next (s.runCipher s.encryptFn) := rfl

theorem exec_decrypt (s : State) : exec .decrypt s = .next (s.runCipher s.decryptFn) := rfl

theorem State.validate_eq_badLen (hk : s.keyvalid = true)
    (h : s.len.toNat = 0 ∨ s.len.toNat % 8 ≠ 0 ∨ s.params.bufBytes < s.len.toNat) : s.validate = .badLen := by
  rw [State.validate, if_neg (by simp [hk]), if_pos h]

theorem State.runCipher_of_badLen (hk : s.keyvalid = true)
    (h : s.len.toNat = 0 ∨ s.len.toNat % 8 ≠ 0 ∨ s.params.bufBytes < s.len.toNat) : s.runCipher fn = s.complete .badLen := by
  rw [State.runCipher, State.validate_eq_badLen hk h]

theorem State.validate_of_runCipher_ok (h : (s.runCipher fn).errcode = .ok) : s.validate = .ok := by
  obtain ⟨-, e⟩ | ⟨hok, -⟩ := s.runCipher_cases fn
  · rwa [e] at h
  · exact hok

theorem State.runCipher_of_validate_ok (h : s.validate = .ok) : s.runCipher fn = (s.transform fn).complete .ok := by
  rw [State.runCipher, h]

/-- BUF and the completion are all that changes (R224). -/
theorem State.runCipher_eq (h : s.validate = .ok) :
    s.runCipher fn = State.complete { s with buf := (s.runCipher fn).buf } .ok := by
  rw [State.runCipher_of_validate_ok h, State.transform_eq]
  rfl

/-- Each block below LEN is the image of what it held (R223). -/
theorem State.runCipher_block (h : s.validate = .ok) {b : Nat} (hb : 8 * b < s.len.toNat) :
    (s.runCipher fn).block b = fn (s.block b) := by
  obtain ⟨-, -, hmod, -⟩ := State.validate_eq_ok.mp h
  rw [State.runCipher_of_validate_ok h]
  exact (transformBlocks_spec fn s (s.len.toNat / 8)).2.1 b (by omega)

/-- No byte from LEN on changes (R223). -/
theorem State.runCipher_bufByte (h : s.validate = .ok) {a : Nat} (ha : s.len.toNat ≤ a) :
    (s.runCipher fn).bufByte a = s.bufByte a := by
  rw [State.runCipher_of_validate_ok h]
  exact (transformBlocks_spec fn s (s.len.toNat / 8)).2.2 a (by omega)

/-- The three ends of a command that is Validate and Transform (R223, R225). -/
theorem exec_spec_of_runCipher {i : Instr} (hi : exec i s = .next (s.runCipher fn)) :
    (s.keyvalid = true → s.len.toNat ≠ 0 → s.len.toNat % 8 = 0 → s.len.toNat ≤ s.params.bufBytes →
      ∃ (B : List Host.Cell) (t : State),
        t = State.complete { s with buf := B } .ok ∧ exec i s = .next t ∧
        (∀ b, 8 * b < s.len.toNat → t.block b = fn (s.block b)) ∧ ∀ a, s.len.toNat ≤ a → t.bufByte a = s.bufByte a) ∧
    (s.keyvalid = false → exec i s = .next (s.complete .noKey)) ∧
    (s.keyvalid = true → (s.len.toNat = 0 ∨ s.len.toNat % 8 ≠ 0 ∨ s.params.bufBytes < s.len.toNat) →
      exec i s = .next (s.complete .badLen)) := by
  refine ⟨fun hk h0 h8 hle => ?_, fun hk => ?_, fun hk hlen => ?_⟩
  · have hv := State.validate_eq_ok.mpr ⟨hk, h0, h8, hle⟩
    exact ⟨_, _, State.runCipher_eq hv, hi, fun _ => State.runCipher_block hv, fun _ => State.runCipher_bufByte hv⟩
  · rw [hi, State.runCipher_of_keyvalid_eq_false hk]
  · rw [hi, State.runCipher_of_badLen hk hlen]

/-- A second transform, by the inverse function, restores every byte (R222, R223). -/
theorem State.runCipher_runCipher {gn : Word × Word → Word × Word} (h : s.validate = .ok) (hinv : ∀ x, gn (fn x) = x)
    (a : Nat) : ((s.runCipher fn).runCipher gn).bufByte a = s.bufByte a := by
  have hlen : (s.runCipher fn).len = s.len := by rw [State.runCipher_eq h]; rfl
  have hvalid : (s.runCipher fn).validate = .ok := by rw [State.runCipher_eq h]; exact h
  by_cases ha : a < s.len.toNat
  · have hb : 8 * (a / 8) < s.len.toNat := by omega
    apply State.bufByte_eq_of_block_eq
    rw [State.runCipher_block hvalid (by rwa [hlen]), State.runCipher_block h hb, hinv]
  · rw [State.runCipher_bufByte hvalid (by rw [hlen]; omega), State.runCipher_bufByte h (by omega)]

/-- The bytes below LEN are the same from two states with the same bytes there (R224). -/
theorem State.runCipher_congr {s' : State} (hv : s.validate = .ok) (hv' : s'.validate = .ok) (hlen : s.len = s'.len)
    (hbuf : ∀ a, a < s.len.toNat → s.bufByte a = s'.bufByte a) {a : Nat} (ha : a < s.len.toNat) :
    (s.runCipher fn).bufByte a = (s'.runCipher fn).bufByte a := by
  obtain ⟨-, -, hmod, -⟩ := State.validate_eq_ok.mp hv
  have hb : 8 * (a / 8) < s.len.toNat := by omega
  apply State.bufByte_eq_of_block_eq
  rw [State.runCipher_block hv hb, State.runCipher_block hv' (hlen ▸ hb),
    State.block_congr fun x hx => hbuf x (by omega)]

/-- A loaded schedule has an even number of rounds (R29, R30). -/
theorem State.Inv.rounds_even (hs : s.Inv) (hk : s.keyvalid = true) : s.rounds.toNat % 2 = 0 := by
  obtain ⟨-, -, hr⟩ := hs.loaded hk
  omega

end RunCipher

/-- Settles O20: ENCRYPT is Validate and Transform with EncryptBlock. -/
theorem encryptTransformsBuffer : Obligations.EncryptTransformsBuffer := fun s => exec_spec_of_runCipher (exec_encrypt s)

/-- Settles O21: DECRYPT is Validate and Transform with DecryptBlock. -/
theorem decryptTransformsBuffer : Obligations.DecryptTransformsBuffer := fun s => exec_spec_of_runCipher (exec_decrypt s)

/-- Settles O35: the half-rounds undone in reverse; the second command finds the schedule and LEN of the first. -/
theorem decryptUndoesEncrypt : Obligations.DecryptUndoesEncrypt := by
  refine ⟨fun f sched rounds b h => ⟨decryptBlock_encryptBlock h b, encryptBlock_decryptBlock h b⟩,
    fun s hs hk h0 h8 hle => ?_⟩
  have hv := State.validate_eq_ok.mpr ⟨hk, h0, h8, hle⟩
  have heven := hs.rounds_even hk
  refine ⟨⟨_, _, exec_encrypt s, exec_decrypt _, ?_⟩, ⟨_, _, exec_decrypt s, exec_encrypt _, ?_⟩⟩
  · have hfn : (s.runCipher s.encryptFn).decryptFn = s.decryptFn := by rw [State.runCipher_eq hv]; rfl
    rw [hfn]
    exact State.runCipher_runCipher hv (decryptBlock_encryptBlock heven)
  · have hfn : (s.runCipher s.decryptFn).encryptFn = s.encryptFn := by rw [State.runCipher_eq hv]; rfl
    rw [hfn]
    exact State.runCipher_runCipher hv (encryptBlock_decryptBlock heven)

/-- Settles O36: the two runs have the same function of blocks, and the same blocks below LEN. -/
theorem cipherDependsOnItsInputs : Obligations.CipherDependsOnItsInputs := by
  intro s s' t t' i hi hlen hrounds hsched hsbox hbuf ht ht' hok hok' a ha
  have hbox : s.sboxAt = s'.sboxAt := funext fun k => funext (hsbox k)
  have henc : s'.encryptFn = s.encryptFn := funext fun b => by
    rw [State.encryptFn, State.encryptFn, ← hrounds, ← hbox, encryptBlock_congr hsched]
  have hdec : s'.decryptFn = s.decryptFn := funext fun b => by
    rw [State.decryptFn, State.decryptFn, ← hrounds, ← hbox, decryptBlock_congr hsched]
  have same : ∀ fn, t = s.runCipher fn → t' = s'.runCipher fn → t.bufByte a = t'.bufByte a := by
    rintro fn rfl rfl
    exact State.runCipher_congr (State.validate_of_runCipher_ok hok) (State.validate_of_runCipher_ok hok') hlen hbuf ha
  simp only [List.mem_cons, List.not_mem_nil, or_false] at hi
  obtain rfl | rfl := hi
  · rw [exec_encrypt, Host.Outcome.next.injEq] at ht ht'
    exact same s.encryptFn ht.symm (by rw [← henc, ht'])
  · rw [exec_decrypt, Host.Outcome.next.injEq] at ht ht'
    exact same s.decryptFn ht.symm (by rw [← hdec, ht'])

/-- Settles O12: the meaning of NOP is the completion with OK. -/
theorem nopCompletes : Obligations.NopCompletes := fun _ => rfl

end Sys2Proof.Machine

namespace Sys2Proof.Machine

/-! What the host can learn (O50): each operation but ENCRYPT and DECRYPT shows the same from the public view of a state as
from the state itself (R263). -/

section PublicView

variable (s : State)

/-- Two outcomes are next states that show the host the same. -/
def SameView (o o' : Host.Outcome State Fault Refusal) : Prop :=
  ∃ t t', o = .next t ∧ o' = .next t' ∧ t.publicView = t'.publicView

theorem SameView.of_next {t t' : State} (h : t.publicView = t'.publicView) : SameView (.next t) (.next t') :=
  ⟨t, t', rfl, rfl, h⟩

/-- Outcomes that show the same as a third: the one answers a next state when the other does. -/
theorem SameView.exists_next {o o₁ o₂ : Host.Outcome State Fault Refusal} {t : State} (h₁ : SameView o₁ o)
    (h₂ : SameView o₂ o) (h : o₁ = .next t) : ∃ t', o₂ = .next t' ∧ t.publicView = t'.publicView := by
  obtain ⟨u₁, v₁, rfl, hv₁, hview₁⟩ := h₁
  obtain ⟨u₂, v₂, rfl, hv₂, hview₂⟩ := h₂
  obtain rfl := Host.Outcome.next.inj h
  obtain rfl := Host.Outcome.next.inj (hv₁.symm.trans hv₂)
  exact ⟨u₂, rfl, hview₁.trans hview₂.symm⟩

/-! The host's accesses. -/

theorem State.readResult_publicView (v : Word) :
    s.publicView.readResult v = ((s.readResult v).1, (s.readResult v).2.publicView) := by
  cases hb : s.busy
  · rw [State.readResult_of_idle hb, State.readResult_of_idle (s := s.publicView) hb]
  · rw [State.readResult_of_busy hb, State.readResult_of_busy (s := s.publicView) hb]
    rfl

/-- No location shows a byte of KEY or a word of SCHED: a KEY word reads 0, and SCHED has no location (R33, R36). -/
theorem State.readLoc_publicView (l : Loc) :
    s.publicView.readLoc l = ((s.readLoc l).1, (s.readLoc l).2.publicView) := by
  cases l with
  | size | rounds | result | bufWord w => exact s.readResult_publicView _
  | id | param | cmd | status | irqen | level | keylen | len | opa | opb | opc | opd | keyWord w => rfl

theorem State.hostRead_publicView (off : Offset) (size : Nat) :
    s.publicView.hostRead off size = ((s.hostRead off size).1, (s.hostRead off size).2.publicView) := by
  cases hl : accessLoc s.params off size with
  | none => rw [State.hostRead_of_none hl, State.hostRead_of_none (s := s.publicView) hl]; rfl
  | some l => rw [State.hostRead_of_some hl, State.hostRead_of_some (s := s.publicView) hl, s.readLoc_publicView]

theorem State.unlessBusy_publicView {t t' : State} (h : t.publicView = t'.publicView) :
    (s.unlessBusy t).publicView = (s.publicView.unlessBusy t').publicView := by
  cases hb : s.busy
  · rw [State.unlessBusy_of_idle hb, State.unlessBusy_of_idle (s := s.publicView) hb, h]
  · rw [State.unlessBusy_of_busy hb, State.unlessBusy_of_busy (s := s.publicView) hb]
    rfl

theorem State.writeLoc_publicView (l : Loc) (v : Word) :
    (s.writeLoc l v).publicView = (s.publicView.writeLoc l v).publicView := by
  cases l with
  | id | param | size | rounds | result | status | irqen => rfl
  | cmd | level | keylen | len | opa | opb | opc | opd | keyWord w | bufWord w => exact s.unlessBusy_publicView rfl

theorem State.hostWrite_publicView (off : Offset) (size : Nat) (v : Word) :
    (s.hostWrite off size v).publicView = (s.publicView.hostWrite off size v).publicView := by
  cases hl : accessLoc s.params off size with
  | none => rw [State.hostWrite_of_none hl, State.hostWrite_of_none (s := s.publicView) hl]; rfl
  | some l => rw [State.hostWrite_of_some hl, State.hostWrite_of_some (s := s.publicView) hl, s.writeLoc_publicView]

theorem State.performAccess_publicView (a : Access) :
    (s.performAccess a).publicView = (s.publicView.performAccess a).publicView := by
  cases a with
  | read off size => rw [State.performAccess, State.performAccess, s.hostRead_publicView]; rfl
  | write off size v => exact s.hostWrite_publicView off size v

theorem State.waitStep_publicView (rest : List HostOp) :
    (s.waitStep rest).publicView = (s.publicView.waitStep rest).publicView := by
  rw [s.waitStep_eq, s.publicView.waitStep_eq]
  change _ = (if s.busy then _ else _ : State).publicView
  cases s.busy <;> rfl

theorem hostStep_publicView : (hostStep s).publicView = (hostStep s.publicView).publicView := by
  match hp : s.program with
  | [] => rw [(hostStep_of_nil hp).2, (hostStep_of_nil (s := s.publicView) hp).2]; rfl
  | .access a :: rest =>
    rw [(hostStep_of_access hp).2, (hostStep_of_access (s := s.publicView) hp).2]
    exact State.performAccess_publicView { s with program := rest } a
  | .wait :: rest =>
    rw [(hostStep_of_wait hp).2, (hostStep_of_wait (s := s.publicView) hp).2]
    exact s.waitStep_publicView rest

/-! The commands. -/

theorem State.diagnose_publicView (r : Option Word) :
    (s.diagnose r).publicView = (s.publicView.diagnose r).publicView := by
  cases r <;> rfl

/-- KEYSET checks LEVEL and KEYLEN only; what it makes of KEY goes to SCHED (R182). -/
theorem exec_keyset_publicView : SameView (exec .keyset s) (exec .keyset s.publicView) := by
  by_cases hc : s.keysetCheck = .ok
  · rw [exec_keyset_of_ok hc, exec_keyset_of_ok (s := s.publicView) hc]
    exact .of_next rfl
  · rw [exec_keyset_of_error rfl hc, exec_keyset_of_error (s := s.publicView) rfl hc]
    exact .of_next rfl

/-- Only ENCRYPT and DECRYPT show anything of SCHED, and no command shows anything of KEY. -/
theorem exec_publicView {i : Instr} (henc : i ≠ .encrypt) (hdec : i ≠ .decrypt) :
    SameView (exec i s) (exec i s.publicView) := by
  cases i with
  | encrypt => exact absurd rfl henc
  | decrypt => exact absurd rfl hdec
  | keyset => exact exec_keyset_publicView s
  | nop | zeroize => exact .of_next rfl
  | gfmul | gfexp7 | perm32 | sboxrd | roundf => exact .of_next (s.diagnose_publicView _)

/-- No ENCRYPT or DECRYPT waits for the engine. -/
abbrev State.NoCipherPending : Prop :=
  ∀ w, s.pending = .cmd w → decode w ≠ some .encrypt ∧ decode w ≠ some .decrypt

theorem engineStep_publicView (hn : s.NoCipherPending) : SameView (engineStep s) (engineStep s.publicView) := by
  match hp : s.pending with
  | .idle =>
    rw [engineStep_of_idle hp, engineStep_of_idle (s := s.publicView) hp]
    exact .of_next rfl
  | .init =>
    rw [engineStep_of_init hp, engineStep_of_init (s := s.publicView) hp]
    exact .of_next rfl
  | .cmd w =>
    cases hd : decode w with
    | none =>
      rw [engineStep_of_illegal hp hd, engineStep_of_illegal (s := s.publicView) hp hd]
      exact .of_next rfl
    | some i =>
      obtain ⟨henc, hdec⟩ := hn w hp
      rw [engineStep_of_cmd hp hd, engineStep_of_cmd (s := s.publicView) hp hd]
      exact exec_publicView s (by rintro rfl; exact henc hd) (by rintro rfl; exact hdec hd)

/-- Every transition but the engine's ENCRYPT and DECRYPT. -/
theorem step_publicView (hn : (nextTurn s).1 = .engine → s.NoCipherPending) :
    SameView (step s) (step s.publicView) := by
  cases ht : (nextTurn s).1 with
  | host =>
    rw [step_of_host ht, step_of_host (s := s.publicView) ht]
    exact .of_next (hostStep_publicView s.taken)
  | engine =>
    rw [step_of_engine ht, step_of_engine (s := s.publicView) ht]
    exact engineStep_publicView s.taken (hn ht)
  | reset =>
    rw [step_of_reset ht, step_of_reset (s := s.publicView) ht]
    exact .of_next rfl

/-- The public view holds PENDING and whose turn it is. -/
theorem State.pending_eq_of_publicView_eq {s s' : State} (h : s.publicView = s'.publicView) : s.pending = s'.pending :=
  congrArg (·.pending) h

theorem nextTurn_eq_of_publicView_eq {s s' : State} (h : s.publicView = s'.publicView) : nextTurn s = nextTurn s' := by
  change nextTurn s.publicView = nextTurn s'.publicView
  rw [h]

end PublicView

/-- Settles O50: both states step to what their common public view steps to, up to the secrets. -/
theorem keysAreNotObservable : Obligations.KeysAreNotObservable := by
  intro s s' t hview hstep hn
  have hn' : (nextTurn s').1 = .engine → s'.NoCipherPending := by
    rw [← nextTurn_eq_of_publicView_eq hview, State.NoCipherPending, ← State.pending_eq_of_publicView_eq hview]
    exact hn
  exact (step_publicView s hn).exists_next (hview ▸ step_publicView s' hn') hstep

/-! How a command ends (O22, O23). -/

section Completion

variable {i : Instr} {s t : State}

theorem State.complete_of_ne_ok (s : State) {c : ErrCode} (hc : c ≠ .ok) :
    s.complete c = { s with pending := .idle, done := true, err := true, errcode := c } := by
  rw [State.complete, bne_iff_ne.mpr hc]

/-- A command that ends with an error has no effect but its completion (R254). -/
theorem exec_eq_complete_of_error (h : exec i s = .next t) (he : t.errcode ≠ .ok) : t = s.complete t.errcode := by
  obtain ⟨c, -, rfl⟩ | ⟨-, rfl⟩ | ⟨-, -, -, rfl⟩ | ⟨-, rfl⟩ | ⟨-, -, fn, rfl⟩ | ⟨-, v, rfl⟩ := exec_cases h
  · rfl
  all_goals exact absurd rfl he

/-- The same of any pending word: an illegal one has no other effect either (R94). -/
theorem engineStep_eq_complete_of_error {w : Word} (hp : s.pending = .cmd w) (h : engineStep s = .next t)
    (he : t.errcode ≠ .ok) : t = s.complete t.errcode := by
  cases hd : decode w with
  | some i => exact exec_eq_complete_of_error ((engineStep_of_cmd hp hd).symm.trans h) he
  | none =>
    obtain rfl := Host.Outcome.next.inj ((engineStep_of_illegal hp hd).symm.trans h)
    rfl

/-- The errors of each command (R251). -/
def commandErrors : Instr → List ErrCode
  | .nop | .zeroize | .perm32 => []
  | .keyset => [.levelRange, .badKeylen]
  | .encrypt | .decrypt => [.noKey, .badLen]
  | .gfmul | .gfexp7 | .sboxrd | .roundf => [.badOperand]

theorem State.keysetCheck_mem (s : State) : s.keysetCheck ∈ [ErrCode.ok, .levelRange, .badKeylen] := by
  unfold State.keysetCheck
  split_ifs <;> simp

theorem State.runCipher_errcode_mem (s : State) (fn : Word × Word → Word × Word) :
    (s.runCipher fn).errcode ∈ [ErrCode.ok, .noKey, .badLen] := by
  have hv : s.validate ∈ [ErrCode.ok, .noKey, .badLen] := by
    unfold State.validate
    split_ifs <;> simp
  obtain ⟨-, e⟩ | ⟨-, e⟩ := s.runCipher_cases fn <;> rw [e]
  · exact hv
  · simp

theorem State.diagnose_errcode_mem (s : State) (r : Option Word) :
    (s.diagnose r).errcode ∈ [ErrCode.ok, .badOperand] := by
  cases r <;> simp [State.diagnose]

theorem exec_keyset_errcode_mem (h : exec .keyset s = .next t) : t.errcode ∈ [ErrCode.ok, .levelRange, .badKeylen] := by
  by_cases hc : s.keysetCheck = .ok
  · obtain rfl := Host.Outcome.next.inj ((exec_keyset_of_ok hc).symm.trans h)
    simp
  · obtain rfl := Host.Outcome.next.inj ((exec_keyset_of_error rfl hc).symm.trans h)
    exact s.keysetCheck_mem

theorem exec_errcode_mem (h : exec i s = .next t) : t.errcode ∈ .ok :: commandErrors i := by
  cases i with
  | keyset => exact exec_keyset_errcode_mem h
  | nop | zeroize | perm32 =>
    obtain rfl := Host.Outcome.next.inj h
    exact List.mem_singleton.mpr rfl
  | encrypt | decrypt =>
    obtain rfl := Host.Outcome.next.inj h
    exact s.runCipher_errcode_mem _
  | gfmul | gfexp7 | sboxrd | roundf =>
    obtain rfl := Host.Outcome.next.inj h
    exact s.diagnose_errcode_mem _

end Completion

/-- Settles O22: the engine's turn finds the state with the turn taken. -/
theorem errorsChangeOnlyStatus : Obligations.ErrorsChangeOnlyStatus := by
  intro s t w hp ht h he
  rw [step_of_engine ht] at h
  exact (engineStep_eq_complete_of_error (s := s.taken) hp h he).trans (s.taken.complete_of_ne_ok he)

/-- Settles O23: the frame of a command, and R251's table by command. -/
theorem commandsReportOnlyTheirErrors : Obligations.CommandsReportOnlyTheirErrors := by
  intro i s t h
  have hmem := exec_errcode_mem h
  refine ⟨by rw [exec_frame h], by rw [exec_frame h], by rw [exec_frame h]; simp, ?_⟩
  cases i <;> simpa [commandErrors] using hmem

/-! The interrupt output (O46). -/

section Irq

variable (s : State)

/-- The two factors of irq as the host reads them (R260). -/
theorem State.irq_eq : s.irq = (s.statusWord.getLsbD 1 && s.irqenWord.getLsbD 0) := by
  have hen : s.irqenWord.getLsbD 0 = s.irqen := by
    rw [State.irqenWord_eq]
    cases s.irqen <;> rfl
  rw [s.statusWord_getLsbD 1, hen, State.irq]

theorem State.hostWrite_irqen (v : Word) : s.hostWrite 0x010 4 v = s.writeIrqen v := rfl

theorem State.hostWrite_status (v : Word) : s.hostWrite 0x00C 4 v = s.writeStatus v := rfl

theorem State.writeIrqen_irq (v : Word) : (s.writeIrqen v).irq = (s.done && v.getLsbD 0) := rfl

/-- A 1 written to bit 1 of STATUS clears DONE, and irq with it (R23, R260). -/
theorem State.writeStatus_irq {v : Word} (hv : v.getLsbD 1 = true) : (s.writeStatus v).irq = false := by
  simp [State.irq, hv]

end Irq

/-- Settles O46: each write by what it makes of the two factors of irq. -/
theorem irqFollowsDoneAndEnable : Obligations.IrqFollowsDoneAndEnable := by
  refine ⟨fun s => ?_, rfl⟩
  rw [State.hostWrite_irqen, State.hostWrite_irqen, State.hostWrite_status]
  refine ⟨s.irq_eq, ?_, rfl, ?_, s.writeStatus_irq (by decide)⟩
  · rw [State.writeIrqen_irq]
    exact Bool.and_false _
  · rw [State.writeIrqen_irq]
    exact Bool.and_true _

end Sys2Proof.Machine

namespace Sys2Proof.Machine

/-! Every step answers (O8), and the host port while BUSY = 1 (O39, O40). -/

/-- Settles O8: the turns of the host and of reset are one update, and the engine's turn ends whatever is pending. -/
theorem everyStepAnswersNext : Obligations.EveryStepAnswersNext := by
  intro s
  cases ht : (nextTurn s).1 with
  | host => exact ⟨_, step_of_host ht⟩
  | engine => exact (engineStep_exists_next s.taken).imp fun _ h => (step_of_engine ht).trans h
  | reset => exact ⟨_, step_of_reset ht⟩

section Busy

/-- The locations a read of which is a draw while BUSY = 1 (R301). -/
def Loc.drawnWhileBusy (l : Loc) : Prop := l ∈ [Loc.size, .rounds, .result] ∨ ∃ w, l = .bufWord w

/-- A register of a list that names no window word is reached at its offset (R20). -/
theorem accessLoc_of_mem (p : Params) {l : Loc} {ls : List Loc} (hl : l ∈ ls)
    (hls : ∀ w, Loc.keyWord w ∉ ls ∧ Loc.bufWord w ∉ ls) : accessLoc p l.offset 4 = some l :=
  accessLoc_register p l fun w => ⟨fun h => (hls w).1 (h ▸ hl), fun h => (hls w).2 (h ▸ hl)⟩

variable {s : State} (hb : s.busy = true)

include hb

/-- R300 by location: each dropped location's write is an `unlessBusy`. -/
theorem State.writeLoc_of_dropped {l : Loc} (hl : l.droppedWhileBusy) (v : Word) : s.writeLoc l v = s.overrun := by
  cases l with
  | id | param | status | irqen | size | rounds | result => simp [Loc.droppedWhileBusy] at hl
  | cmd | level | keylen | len | opa | opb | opc | opd | keyWord w | bufWord w => exact State.unlessBusy_of_busy hb _

/-- R301 by location: each drawn location's read is a `readResult`. -/
theorem State.readLoc_of_drawn {l : Loc} (hl : l.drawnWhileBusy) : s.readLoc l = s.draw := by
  cases l with
  | size | rounds | result | bufWord w => exact State.readResult_of_busy hb _
  | id | param | cmd | status | irqen | level | keylen | len | opa | opb | opc | opd | keyWord w =>
    simp [Loc.drawnWhileBusy] at hl

theorem State.hostWrite_of_dropped {l : Loc} (ha : accessLoc s.params l.offset 4 = some l) (hl : l.droppedWhileBusy)
    (v : Word) : s.hostWrite l.offset 4 v = s.overrun :=
  (State.hostWrite_of_some ha v).trans (State.writeLoc_of_dropped hb hl v)

theorem State.hostRead_of_drawn {l : Loc} (ha : accessLoc s.params l.offset 4 = some l) (hl : l.drawnWhileBusy) :
    s.hostRead l.offset 4 = s.draw :=
  (State.hostRead_of_some ha).trans (State.readLoc_of_drawn hb hl)

end Busy

/-- Settles O39: the dropped locations at their offsets; the writes R300 lets through are the same busy or not. -/
theorem writesWhileBusyAreDropped : Obligations.WritesWhileBusyAreDropped := by
  intro s v hb
  have registers : ∀ off ∈ [Loc.cmd, .level, .keylen, .len, .opa, .opb, .opc, .opd].map Loc.offset,
      s.hostWrite off 4 v = s.overrun :=
    List.forall_mem_map.mpr fun l hl => State.hostWrite_of_dropped hb (accessLoc_of_mem _ hl (by simp)) (.inl hl) v
  obtain ⟨readOnly, -⟩ := readOnlyAndWriteOnlyLocations s v v
  exact ⟨registers,
    fun w hw => State.hostWrite_of_dropped hb (accessLoc_keyWord _ hw) (.inr (.inl ⟨w, rfl⟩)) v,
    fun w hw => State.hostWrite_of_dropped hb (accessLoc_bufWord _ hw) (.inr (.inr ⟨w, rfl⟩)) v,
    s.hostWrite_status v, s.hostWrite_irqen v, readOnly⟩

/-- Settles O40: the drawn locations at their offsets; every other location is read as when idle. -/
theorem readsWhileBusy : Obligations.ReadsWhileBusy := by
  intro s hb
  have registers : ∀ off ∈ [Loc.size, .rounds, .result].map Loc.offset, s.hostRead off 4 = s.draw :=
    List.forall_mem_map.mpr fun l hl => State.hostRead_of_drawn hb (accessLoc_of_mem _ hl (by simp)) (.inl hl)
  exact ⟨registers,
    fun w hw => State.hostRead_of_drawn hb (accessLoc_bufWord _ hw) (.inr ⟨w, rfl⟩),
    rfl, rfl, rfl, s.hostRead_status, rfl, rfl, rfl, rfl, rfl, rfl, rfl, rfl, fun w hw => State.hostRead_keyWord hw⟩

end Sys2Proof.Machine
